-- ==== Sys2Proof/Word.lean ====
section
/-! DEFINITION. The word types of the engine (00_scope R9, 10_state R20, 20_memory R60). -/

namespace Sys2Proof

/-- A register, a Mono1 machine word or a byte address (10_state R20, 20_memory R62). -/
abbrev Word := BitVec 32

/-- One byte of PIXMEM (20_memory R60). -/
abbrev Byte := BitVec 8

/-- A colour is one byte (40_primitives R126). -/
abbrev Color := BitVec 8

end Sys2Proof
end

