-- ==== Sys2Proof/Syntax.lean ====
section
/-! DEFINITION. The instructions: one constructor for each row of spec/opcode_table.json (30_encoding R100, R105),
and the closed enumerations their operands range over (30_encoding R95, R96). -/

namespace Sys2Proof

/-- The pixel formats in the order of their codes 0 to 7, with the two reserved codes (30_encoding R95, R102). -/
inductive PixelFormat where
  | mono1 | palette1 | palette2 | palette4 | color8 | color8Circular
  /-- code 6, no pixel format: such a pair is unsupported (R102 (b)) -/
  | reserved6
  /-- code 7, no pixel format: such a pair is unsupported (R102 (b)) -/
  | reserved7
deriving DecidableEq, Repr, Inhabited

/-- The compositing operators in the order of their codes 0 to 7 (30_encoding R96). -/
inductive CompOp where
  | assign | assignInverted | or | and | clear | set | tint | tintLuminance
deriving DecidableEq, Repr, Inhabited

/-- What a decoder is given: a word written to CMD (30_encoding R97), or a dispatch key K in two bytes, nine bits
used (30_encoding R104). -/
inductive Packet where
  | cmd (w : BitVec 32)
  | key (k : BitVec 16)
deriving DecidableEq, Repr

/-- One constructor for each row of spec/opcode_table.json. The ten commands carry no operand (30_encoding R98).
A row over the dispatch key carries the operator `op`, the destination format `d` and the source format `f` that
the row's free bits leave open (30_encoding R105). -/
inductive Instr where
  /-- BLIT (R161) -/
  | blit
  /-- BLIT_AT (R168) -/
  | blitAt
  /-- IS_NOOP (R169) -/
  | isNoop
  /-- FB_CLEAR (R284) -/
  | fbClear
  /-- FB_MARK_DIRTY (R286) -/
  | fbMarkDirty
  /-- FB_GET_ROW (R288) -/
  | fbGetRow
  /-- FB_SIZE_BYTES (R290) -/
  | fbSizeBytes
  /-- FB_HAS_NEXT_ROW (R294) -/
  | fbHasNextRow
  /-- FB_NEXT_ROW (R296) -/
  | fbNextRow
  /-- FB_RESET_DIRTY (R297) -/
  | fbResetDirty
  /-- M1M1.Assign (R183) -/
  | m1m1Assign
  /-- M1M1.AssignInverted (R184) -/
  | m1m1AssignInverted
  /-- M1M1.Or (R185) -/
  | m1m1Or
  /-- M1M1.And (R186) -/
  | m1m1And
  /-- M1M1.Clear (R187) -/
  | m1m1Clear
  /-- M1M1.Set (R188) -/
  | m1m1Set
  /-- M1M1.Tint (R189) -/
  | m1m1Tint
  /-- M1M1.TintLuminance (R189) -/
  | m1m1TintLuminance
  /-- PALM1.Assign.P1 (R205) -/
  | palm1AssignP1
  /-- PALM1.Assign.P2 (R205) -/
  | palm1AssignP2
  /-- PALM1.AssignInverted.P1 (R210) -/
  | palm1AssignInvertedP1
  /-- PALM1.AssignInverted.P2 (R210) -/
  | palm1AssignInvertedP2
  /-- PALM1.Or.P1 (R210) -/
  | palm1OrP1
  /-- PALM1.Or.P2 (R210) -/
  | palm1OrP2
  /-- PALM1.And.P1 (R210) -/
  | palm1AndP1
  /-- PALM1.And.P2 (R210) -/
  | palm1AndP2
  /-- PALM1.Clear.P1 (R210) -/
  | palm1ClearP1
  /-- PALM1.Clear.P2 (R210) -/
  | palm1ClearP2
  /-- PALM1.Set.P1 (R206) -/
  | palm1SetP1
  /-- PALM1.Set.P2 (R206) -/
  | palm1SetP2
  /-- PALM1.Tint.P1 (R207) -/
  | palm1TintP1
  /-- PALM1.Tint.P2 (R207) -/
  | palm1TintP2
  /-- PALM1.TintLuminance.P1 (R208) -/
  | palm1TintLuminanceP1
  /-- PALM1.TintLuminance.P2 (R208) -/
  | palm1TintLuminanceP2
  /-- PALC8.Assign.P1 (R223) -/
  | palc8AssignP1 (d : PixelFormat)
  /-- PALC8.Assign.P24 (R223) -/
  | palc8AssignP24 (d : PixelFormat) (f : PixelFormat)
  /-- PALC8.AssignInverted.P1 (R228) -/
  | palc8AssignInvertedP1 (d : PixelFormat)
  /-- PALC8.AssignInverted.P24 (R228) -/
  | palc8AssignInvertedP24 (d : PixelFormat) (f : PixelFormat)
  /-- PALC8.Or.P1 (R228) -/
  | palc8OrP1 (d : PixelFormat)
  /-- PALC8.Or.P24 (R228) -/
  | palc8OrP24 (d : PixelFormat) (f : PixelFormat)
  /-- PALC8.And.P1 (R228) -/
  | palc8AndP1 (d : PixelFormat)
  /-- PALC8.And.P24 (R228) -/
  | palc8AndP24 (d : PixelFormat) (f : PixelFormat)
  /-- PALC8.Clear.P1 (R228) -/
  | palc8ClearP1 (d : PixelFormat)
  /-- PALC8.Clear.P24 (R228) -/
  | palc8ClearP24 (d : PixelFormat) (f : PixelFormat)
  /-- PALC8.Set.P1 (R224) -/
  | palc8SetP1 (d : PixelFormat)
  /-- PALC8.Set.P24 (R224) -/
  | palc8SetP24 (d : PixelFormat) (f : PixelFormat)
  /-- PALC8.Tint.P1 (R225) -/
  | palc8TintP1 (d : PixelFormat)
  /-- PALC8.Tint.P24 (R225) -/
  | palc8TintP24 (d : PixelFormat) (f : PixelFormat)
  /-- PALC8.TintLuminance.P1 (R227) -/
  | palc8TintLuminanceP1 (d : PixelFormat)
  /-- PALC8.TintLuminance.P24 (R227) -/
  | palc8TintLuminanceP24 (d : PixelFormat) (f : PixelFormat)
  /-- C8C8.Assign (R244) -/
  | c8c8Assign (d : PixelFormat) (f : PixelFormat)
  /-- C8C8.AssignInverted (R245) -/
  | c8c8AssignInverted (d : PixelFormat) (f : PixelFormat)
  /-- C8C8.Or (R246) -/
  | c8c8Or (d : PixelFormat) (f : PixelFormat)
  /-- C8C8.And (R247) -/
  | c8c8And (d : PixelFormat) (f : PixelFormat)
  /-- C8C8.Clear (R248) -/
  | c8c8Clear (d : PixelFormat) (f : PixelFormat)
  /-- C8C8.Set (R249) -/
  | c8c8Set (d : PixelFormat) (f : PixelFormat)
  /-- C8C8.Tint (R250) -/
  | c8c8Tint (d : PixelFormat) (f : PixelFormat)
  /-- C8C8.TintLuminance (R251) -/
  | c8c8TintLuminance (d : PixelFormat) (f : PixelFormat)
  /-- M1C8.Assign (R263) -/
  | m1c8Assign (d : PixelFormat)
  /-- M1C8.AssignInverted (R264) -/
  | m1c8AssignInverted (d : PixelFormat)
  /-- M1C8.Or (R265) -/
  | m1c8Or (d : PixelFormat)
  /-- M1C8.And (R266) -/
  | m1c8And (d : PixelFormat)
  /-- M1C8.Clear (R267) -/
  | m1c8Clear (d : PixelFormat)
  /-- M1C8.Set (R268) -/
  | m1c8Set (d : PixelFormat)
  /-- M1C8.Tint (R269) -/
  | m1c8Tint (d : PixelFormat)
  /-- M1C8.TintLuminance (R270) -/
  | m1c8TintLuminance (d : PixelFormat)
  /-- UNSUPPORTED_PAIR.D_PALETTE1 (R166) -/
  | unsupportedDPalette1 (op : CompOp) (f : PixelFormat)
  /-- UNSUPPORTED_PAIR.D_PALETTE2_4 (R166) -/
  | unsupportedDPalette24 (op : CompOp) (d : PixelFormat) (f : PixelFormat)
  /-- UNSUPPORTED_PAIR.D_RESERVED (R166) -/
  | unsupportedDReserved (op : CompOp) (d : PixelFormat) (f : PixelFormat)
  /-- UNSUPPORTED_PAIR.MONO1_FROM_P4 (R166) -/
  | unsupportedMono1FromP4 (op : CompOp)
  /-- UNSUPPORTED_PAIR.MONO1_FROM_C8_OR_RESERVED (R166) -/
  | unsupportedMono1FromC8OrReserved (op : CompOp) (f : PixelFormat)
  /-- UNSUPPORTED_PAIR.C8_FROM_RESERVED (R166) -/
  | unsupportedC8FromReserved (op : CompOp) (d : PixelFormat) (f : PixelFormat)
deriving DecidableEq, Repr, Inhabited

end Sys2Proof
end

