-- ==== Sys2Proof/WellFormed.lean ====
section
/-! DEFINITION. Well-formedness of an instruction: each operand is a format that the row's pattern over the dispatch
key admits (30_encoding R105). -/

namespace Sys2Proof

/-- `Color8` or `Color8Circular`: the pattern `10x` of a format code (30_encoding R105). -/
def PixelFormat.isEightBit : PixelFormat → Bool
  | .color8 | .color8Circular => true
  | .mono1 | .palette1 | .palette2 | .palette4 | .reserved6 | .reserved7 => false

/-- `Palette2` or `Palette4`: the pattern `01x` of a format code (30_encoding R105). -/
def PixelFormat.isPalette24 : PixelFormat → Bool
  | .palette2 | .palette4 => true
  | .mono1 | .palette1 | .color8 | .color8Circular | .reserved6 | .reserved7 => false

/-- The reserved codes 6 and 7: the pattern `11x` of a format code (30_encoding R95). -/
def PixelFormat.isReserved : PixelFormat → Bool
  | .reserved6 | .reserved7 => true
  | .mono1 | .palette1 | .palette2 | .palette4 | .color8 | .color8Circular => false

/-- Every operand is admitted by the row's encoding (30_encoding R105). -/
def Instr.wellFormed : Instr → Bool
  | .blit => true
  | .blitAt => true
  | .isNoop => true
  | .fbClear => true
  | .fbMarkDirty => true
  | .fbGetRow => true
  | .fbSizeBytes => true
  | .fbHasNextRow => true
  | .fbNextRow => true
  | .fbResetDirty => true
  | .m1m1Assign => true
  | .m1m1AssignInverted => true
  | .m1m1Or => true
  | .m1m1And => true
  | .m1m1Clear => true
  | .m1m1Set => true
  | .m1m1Tint => true
  | .m1m1TintLuminance => true
  | .palm1AssignP1 => true
  | .palm1AssignP2 => true
  | .palm1AssignInvertedP1 => true
  | .palm1AssignInvertedP2 => true
  | .palm1OrP1 => true
  | .palm1OrP2 => true
  | .palm1AndP1 => true
  | .palm1AndP2 => true
  | .palm1ClearP1 => true
  | .palm1ClearP2 => true
  | .palm1SetP1 => true
  | .palm1SetP2 => true
  | .palm1TintP1 => true
  | .palm1TintP2 => true
  | .palm1TintLuminanceP1 => true
  | .palm1TintLuminanceP2 => true
  | .palc8AssignP1 d => d.isEightBit
  | .palc8AssignP24 d f => d.isEightBit && f.isPalette24
  | .palc8AssignInvertedP1 d => d.isEightBit
  | .palc8AssignInvertedP24 d f => d.isEightBit && f.isPalette24
  | .palc8OrP1 d => d.isEightBit
  | .palc8OrP24 d f => d.isEightBit && f.isPalette24
  | .palc8AndP1 d => d.isEightBit
  | .palc8AndP24 d f => d.isEightBit && f.isPalette24
  | .palc8ClearP1 d => d.isEightBit
  | .palc8ClearP24 d f => d.isEightBit && f.isPalette24
  | .palc8SetP1 d => d.isEightBit
  | .palc8SetP24 d f => d.isEightBit && f.isPalette24
  | .palc8TintP1 d => d.isEightBit
  | .palc8TintP24 d f => d.isEightBit && f.isPalette24
  | .palc8TintLuminanceP1 d => d.isEightBit
  | .palc8TintLuminanceP24 d f => d.isEightBit && f.isPalette24
  | .c8c8Assign d f => d.isEightBit && f.isEightBit
  | .c8c8AssignInverted d f => d.isEightBit && f.isEightBit
  | .c8c8Or d f => d.isEightBit && f.isEightBit
  | .c8c8And d f => d.isEightBit && f.isEightBit
  | .c8c8Clear d f => d.isEightBit && f.isEightBit
  | .c8c8Set d f => d.isEightBit && f.isEightBit
  | .c8c8Tint d f => d.isEightBit && f.isEightBit
  | .c8c8TintLuminance d f => d.isEightBit && f.isEightBit
  | .m1c8Assign d => d.isEightBit
  | .m1c8AssignInverted d => d.isEightBit
  | .m1c8Or d => d.isEightBit
  | .m1c8And d => d.isEightBit
  | .m1c8Clear d => d.isEightBit
  | .m1c8Set d => d.isEightBit
  | .m1c8Tint d => d.isEightBit
  | .m1c8TintLuminance d => d.isEightBit
  | .unsupportedDPalette1 _ _ => true
  | .unsupportedDPalette24 _ d _ => d.isPalette24
  | .unsupportedDReserved _ d _ => d.isReserved
  | .unsupportedMono1FromP4 _ => true
  | .unsupportedMono1FromC8OrReserved _ f => f.isEightBit || f.isReserved
  | .unsupportedC8FromReserved _ d f => d.isEightBit && f.isReserved

end Sys2Proof
end

