-- ==== Sys2Proof/Decode.lean ====
section
/-! DEFINITION. The decoder and the encoder, both written from the tables of 30_encoding (R95 to R97, R100, R104,
R105) and spec/opcode_table.json. -/

namespace Sys2Proof

/-- The code of a pixel format (30_encoding R95). -/
def fmtCode : PixelFormat → BitVec 3
  | .mono1 => 0 | .palette1 => 1 | .palette2 => 2 | .palette4 => 3
  | .color8 => 4 | .color8Circular => 5 | .reserved6 => 6 | .reserved7 => 7

/-- The pixel format of a code (30_encoding R95). -/
def fmtOfCode (c : BitVec 3) : PixelFormat :=
  match c.toNat with
  | 0 => .mono1 | 1 => .palette1 | 2 => .palette2 | 3 => .palette4
  | 4 => .color8 | 5 => .color8Circular | 6 => .reserved6 | _ => .reserved7

/-- The code of a compositing operator (30_encoding R96). -/
def opCode : CompOp → BitVec 3
  | .assign => 0 | .assignInverted => 1 | .or => 2 | .and => 3
  | .clear => 4 | .set => 5 | .tint => 6 | .tintLuminance => 7

/-- The operator of a code: every three-bit value is one (30_encoding R96, R102 (c)). -/
def opOfCode (c : BitVec 3) : CompOp :=
  match c.toNat with
  | 0 => .assign | 1 => .assignInverted | 2 => .or | 3 => .and
  | 4 => .clear | 5 => .set | 6 => .tint | _ => .tintLuminance

/-- The dispatch key `K = op ++ D.format ++ S.format` (30_encoding R104). -/
def dispatchKey (op : CompOp) (d f : PixelFormat) : BitVec 9 :=
  opCode op ++ fmtCode d ++ fmtCode f

/-- Why a packet is no instruction. -/
inductive Reject where
  /-- a CMD word that matches no opcode (30_encoding R102 (a)) -/
  | illegalCommand
  /-- a key with one of its bits 15 to 9 set: K has nine bits (30_encoding R104) -/
  | reservedKeyBits
  /-- a key that matches no row: there is none, every key matches exactly one (30_encoding R105) -/
  | unmatchedKey
deriving DecidableEq, Repr

/-- A row of the opcode table over the CMD word: the whole word is matched (30_encoding R97). -/
structure CmdRow where
  pat : BitVec 32
  instr : Instr

/-- The ten commands (30_encoding R100). -/
def cmdRows : List CmdRow := [
  ⟨0x00000001, .blit⟩,
  ⟨0x00000002, .blitAt⟩,
  ⟨0x00000003, .isNoop⟩,
  ⟨0x00000010, .fbClear⟩,
  ⟨0x00000011, .fbMarkDirty⟩,
  ⟨0x00000012, .fbGetRow⟩,
  ⟨0x00000013, .fbSizeBytes⟩,
  ⟨0x00000014, .fbHasNextRow⟩,
  ⟨0x00000015, .fbNextRow⟩,
  ⟨0x00000016, .fbResetDirty⟩]

/-- A row of the opcode table over the dispatch key: `K &&& mask = pat`; the bits left free are the operands, read
back as operator, destination format and source format (30_encoding R104, R105). -/
structure KeyRow where
  mask : BitVec 9
  pat : BitVec 9
  build : CompOp → PixelFormat → PixelFormat → Instr

/-- The rows `M1M1.*`, key `op 000 000` (30_encoding R105). -/
def m1m1Rows : List KeyRow := [
  ⟨0x1FF, 0x000, fun _ _ _ => .m1m1Assign⟩,
  ⟨0x1FF, 0x040, fun _ _ _ => .m1m1AssignInverted⟩,
  ⟨0x1FF, 0x080, fun _ _ _ => .m1m1Or⟩,
  ⟨0x1FF, 0x0C0, fun _ _ _ => .m1m1And⟩,
  ⟨0x1FF, 0x100, fun _ _ _ => .m1m1Clear⟩,
  ⟨0x1FF, 0x140, fun _ _ _ => .m1m1Set⟩,
  ⟨0x1FF, 0x180, fun _ _ _ => .m1m1Tint⟩,
  ⟨0x1FF, 0x1C0, fun _ _ _ => .m1m1TintLuminance⟩]

/-- The rows `PALM1.*`, keys `op 000 001` and `op 000 010` (30_encoding R105). -/
def palm1Rows : List KeyRow := [
  ⟨0x1FF, 0x001, fun _ _ _ => .palm1AssignP1⟩,
  ⟨0x1FF, 0x002, fun _ _ _ => .palm1AssignP2⟩,
  ⟨0x1FF, 0x041, fun _ _ _ => .palm1AssignInvertedP1⟩,
  ⟨0x1FF, 0x042, fun _ _ _ => .palm1AssignInvertedP2⟩,
  ⟨0x1FF, 0x081, fun _ _ _ => .palm1OrP1⟩,
  ⟨0x1FF, 0x082, fun _ _ _ => .palm1OrP2⟩,
  ⟨0x1FF, 0x0C1, fun _ _ _ => .palm1AndP1⟩,
  ⟨0x1FF, 0x0C2, fun _ _ _ => .palm1AndP2⟩,
  ⟨0x1FF, 0x101, fun _ _ _ => .palm1ClearP1⟩,
  ⟨0x1FF, 0x102, fun _ _ _ => .palm1ClearP2⟩,
  ⟨0x1FF, 0x141, fun _ _ _ => .palm1SetP1⟩,
  ⟨0x1FF, 0x142, fun _ _ _ => .palm1SetP2⟩,
  ⟨0x1FF, 0x181, fun _ _ _ => .palm1TintP1⟩,
  ⟨0x1FF, 0x182, fun _ _ _ => .palm1TintP2⟩,
  ⟨0x1FF, 0x1C1, fun _ _ _ => .palm1TintLuminanceP1⟩,
  ⟨0x1FF, 0x1C2, fun _ _ _ => .palm1TintLuminanceP2⟩]

/-- The rows `PALC8.*`, keys `op 10x 001` and `op 10x 01x` (30_encoding R105). -/
def palc8Rows : List KeyRow := [
  ⟨0x1F7, 0x021, fun _ d _ => .palc8AssignP1 d⟩,
  ⟨0x1F6, 0x022, fun _ d f => .palc8AssignP24 d f⟩,
  ⟨0x1F7, 0x061, fun _ d _ => .palc8AssignInvertedP1 d⟩,
  ⟨0x1F6, 0x062, fun _ d f => .palc8AssignInvertedP24 d f⟩,
  ⟨0x1F7, 0x0A1, fun _ d _ => .palc8OrP1 d⟩,
  ⟨0x1F6, 0x0A2, fun _ d f => .palc8OrP24 d f⟩,
  ⟨0x1F7, 0x0E1, fun _ d _ => .palc8AndP1 d⟩,
  ⟨0x1F6, 0x0E2, fun _ d f => .palc8AndP24 d f⟩,
  ⟨0x1F7, 0x121, fun _ d _ => .palc8ClearP1 d⟩,
  ⟨0x1F6, 0x122, fun _ d f => .palc8ClearP24 d f⟩,
  ⟨0x1F7, 0x161, fun _ d _ => .palc8SetP1 d⟩,
  ⟨0x1F6, 0x162, fun _ d f => .palc8SetP24 d f⟩,
  ⟨0x1F7, 0x1A1, fun _ d _ => .palc8TintP1 d⟩,
  ⟨0x1F6, 0x1A2, fun _ d f => .palc8TintP24 d f⟩,
  ⟨0x1F7, 0x1E1, fun _ d _ => .palc8TintLuminanceP1 d⟩,
  ⟨0x1F6, 0x1E2, fun _ d f => .palc8TintLuminanceP24 d f⟩]

/-- The rows `C8C8.*`, keys `op 10x 10x` (30_encoding R105). -/
def c8c8Rows : List KeyRow := [
  ⟨0x1F6, 0x024, fun _ d f => .c8c8Assign d f⟩,
  ⟨0x1F6, 0x064, fun _ d f => .c8c8AssignInverted d f⟩,
  ⟨0x1F6, 0x0A4, fun _ d f => .c8c8Or d f⟩,
  ⟨0x1F6, 0x0E4, fun _ d f => .c8c8And d f⟩,
  ⟨0x1F6, 0x124, fun _ d f => .c8c8Clear d f⟩,
  ⟨0x1F6, 0x164, fun _ d f => .c8c8Set d f⟩,
  ⟨0x1F6, 0x1A4, fun _ d f => .c8c8Tint d f⟩,
  ⟨0x1F6, 0x1E4, fun _ d f => .c8c8TintLuminance d f⟩]

/-- The rows `M1C8.*`, keys `op 10x 000` (30_encoding R105). -/
def m1c8Rows : List KeyRow := [
  ⟨0x1F7, 0x020, fun _ d _ => .m1c8Assign d⟩,
  ⟨0x1F7, 0x060, fun _ d _ => .m1c8AssignInverted d⟩,
  ⟨0x1F7, 0x0A0, fun _ d _ => .m1c8Or d⟩,
  ⟨0x1F7, 0x0E0, fun _ d _ => .m1c8And d⟩,
  ⟨0x1F7, 0x120, fun _ d _ => .m1c8Clear d⟩,
  ⟨0x1F7, 0x160, fun _ d _ => .m1c8Set d⟩,
  ⟨0x1F7, 0x1A0, fun _ d _ => .m1c8Tint d⟩,
  ⟨0x1F7, 0x1E0, fun _ d _ => .m1c8TintLuminance d⟩]

/-- The rows `UNSUPPORTED_PAIR.*`, every other key (30_encoding R105). -/
def unsupportedRows : List KeyRow := [
  ⟨0x038, 0x008, fun op _ f => .unsupportedDPalette1 op f⟩,
  ⟨0x030, 0x010, fun op d f => .unsupportedDPalette24 op d f⟩,
  ⟨0x030, 0x030, fun op d f => .unsupportedDReserved op d f⟩,
  ⟨0x03F, 0x003, fun op _ _ => .unsupportedMono1FromP4 op⟩,
  ⟨0x03C, 0x004, fun op _ f => .unsupportedMono1FromC8OrReserved op f⟩,
  ⟨0x036, 0x026, fun op d f => .unsupportedC8FromReserved op d f⟩]

/-- All 62 rows over the dispatch key (spec/opcode_table.json, space K). -/
def keyRows : List KeyRow :=
  m1m1Rows ++ palm1Rows ++ palc8Rows ++ c8c8Rows ++ m1c8Rows ++ unsupportedRows

/-- The command a CMD word selects (30_encoding R97, R100). -/
def decodeCmd (w : BitVec 32) : Option Instr :=
  (cmdRows.find? fun r => w == r.pat).map CmdRow.instr

/-- The row a dispatch key selects (30_encoding R104, R105). -/
def decodeKey (k : BitVec 9) : Option Instr :=
  (keyRows.find? fun r => k &&& r.mask == r.pat).map fun r =>
    r.build (opOfCode (k.extractLsb' 6 3)) (fmtOfCode (k.extractLsb' 3 3)) (fmtOfCode (k.extractLsb' 0 3))

/-- The decoder, total on every packet, rejecting by name (30_encoding R97, R102, R105). -/
def decode : Packet → Except Reject Instr
  | .cmd w =>
    match decodeCmd w with
    | some i => .ok i
    | none => .error .illegalCommand
  | .key k =>
    if k.extractLsb' 9 7 = 0 then
      match decodeKey (k.extractLsb' 0 9) with
      | some i => .ok i
      | none => .error .unmatchedKey
    else .error .reservedKeyBits

/-- A packet that holds a dispatch key (30_encoding R104). -/
def keyPacket (op : CompOp) (d f : PixelFormat) : Packet :=
  .key ((0 : BitVec 7) ++ dispatchKey op d f)

/-- The packet of an instruction (30_encoding R100, R104, R105). -/
def encode : Instr → Packet
  | .blit => .cmd 0x00000001
  | .blitAt => .cmd 0x00000002
  | .isNoop => .cmd 0x00000003
  | .fbClear => .cmd 0x00000010
  | .fbMarkDirty => .cmd 0x00000011
  | .fbGetRow => .cmd 0x00000012
  | .fbSizeBytes => .cmd 0x00000013
  | .fbHasNextRow => .cmd 0x00000014
  | .fbNextRow => .cmd 0x00000015
  | .fbResetDirty => .cmd 0x00000016
  | .m1m1Assign => keyPacket .assign .mono1 .mono1
  | .m1m1AssignInverted => keyPacket .assignInverted .mono1 .mono1
  | .m1m1Or => keyPacket .or .mono1 .mono1
  | .m1m1And => keyPacket .and .mono1 .mono1
  | .m1m1Clear => keyPacket .clear .mono1 .mono1
  | .m1m1Set => keyPacket .set .mono1 .mono1
  | .m1m1Tint => keyPacket .tint .mono1 .mono1
  | .m1m1TintLuminance => keyPacket .tintLuminance .mono1 .mono1
  | .palm1AssignP1 => keyPacket .assign .mono1 .palette1
  | .palm1AssignP2 => keyPacket .assign .mono1 .palette2
  | .palm1AssignInvertedP1 => keyPacket .assignInverted .mono1 .palette1
  | .palm1AssignInvertedP2 => keyPacket .assignInverted .mono1 .palette2
  | .palm1OrP1 => keyPacket .or .mono1 .palette1
  | .palm1OrP2 => keyPacket .or .mono1 .palette2
  | .palm1AndP1 => keyPacket .and .mono1 .palette1
  | .palm1AndP2 => keyPacket .and .mono1 .palette2
  | .palm1ClearP1 => keyPacket .clear .mono1 .palette1
  | .palm1ClearP2 => keyPacket .clear .mono1 .palette2
  | .palm1SetP1 => keyPacket .set .mono1 .palette1
  | .palm1SetP2 => keyPacket .set .mono1 .palette2
  | .palm1TintP1 => keyPacket .tint .mono1 .palette1
  | .palm1TintP2 => keyPacket .tint .mono1 .palette2
  | .palm1TintLuminanceP1 => keyPacket .tintLuminance .mono1 .palette1
  | .palm1TintLuminanceP2 => keyPacket .tintLuminance .mono1 .palette2
  | .palc8AssignP1 d => keyPacket .assign d .palette1
  | .palc8AssignP24 d f => keyPacket .assign d f
  | .palc8AssignInvertedP1 d => keyPacket .assignInverted d .palette1
  | .palc8AssignInvertedP24 d f => keyPacket .assignInverted d f
  | .palc8OrP1 d => keyPacket .or d .palette1
  | .palc8OrP24 d f => keyPacket .or d f
  | .palc8AndP1 d => keyPacket .and d .palette1
  | .palc8AndP24 d f => keyPacket .and d f
  | .palc8ClearP1 d => keyPacket .clear d .palette1
  | .palc8ClearP24 d f => keyPacket .clear d f
  | .palc8SetP1 d => keyPacket .set d .palette1
  | .palc8SetP24 d f => keyPacket .set d f
  | .palc8TintP1 d => keyPacket .tint d .palette1
  | .palc8TintP24 d f => keyPacket .tint d f
  | .palc8TintLuminanceP1 d => keyPacket .tintLuminance d .palette1
  | .palc8TintLuminanceP24 d f => keyPacket .tintLuminance d f
  | .c8c8Assign d f => keyPacket .assign d f
  | .c8c8AssignInverted d f => keyPacket .assignInverted d f
  | .c8c8Or d f => keyPacket .or d f
  | .c8c8And d f => keyPacket .and d f
  | .c8c8Clear d f => keyPacket .clear d f
  | .c8c8Set d f => keyPacket .set d f
  | .c8c8Tint d f => keyPacket .tint d f
  | .c8c8TintLuminance d f => keyPacket .tintLuminance d f
  | .m1c8Assign d => keyPacket .assign d .mono1
  | .m1c8AssignInverted d => keyPacket .assignInverted d .mono1
  | .m1c8Or d => keyPacket .or d .mono1
  | .m1c8And d => keyPacket .and d .mono1
  | .m1c8Clear d => keyPacket .clear d .mono1
  | .m1c8Set d => keyPacket .set d .mono1
  | .m1c8Tint d => keyPacket .tint d .mono1
  | .m1c8TintLuminance d => keyPacket .tintLuminance d .mono1
  | .unsupportedDPalette1 op f => keyPacket op .palette1 f
  | .unsupportedDPalette24 op d f => keyPacket op d f
  | .unsupportedDReserved op d f => keyPacket op d f
  | .unsupportedMono1FromP4 op => keyPacket op .mono1 .palette4
  | .unsupportedMono1FromC8OrReserved op f => keyPacket op .mono1 f
  | .unsupportedC8FromReserved op d f => keyPacket op d f

/-- The packet that an instruction of `nbits` bits with the value `w` is: a row over the dispatch key takes two
bytes, a CMD word four (spec/opcode_table.json, `width`). -/
def packetOf (nbits w : Nat) : Packet :=
  if nbits ≤ 16 then .key (BitVec.ofNat 16 w) else .cmd (BitVec.ofNat 32 w)

/-- The instruction the decoder reads from an instruction whose bits are `w`. -/
def decodeTableWord (nbits w : Nat) : Option Instr :=
  (decode (packetOf nbits w)).toOption

end Sys2Proof
end

