-- ==== Sys2Proof/Config.lean ====
section
/-! DEFINITION. What an implementation fixes: the configuration record as plain data (00_scope R8, 10_state R45), and
the constants without a body that the spec leaves open (40_primitives R130, 93 U7, U12, D31). -/

namespace Sys2Proof

/-- One entry of the per-row table of the circular back end (10_state R45). -/
structure RowEntry where
  /-- the offset of column 0 of the row, possibly negative -/
  offset : Int
  minX : Nat
  maxX : Nat
deriving DecidableEq, Repr, Inhabited

/-- A stretch of PIXMEM addresses. -/
structure Region where
  base : Nat
  size : Nat
deriving DecidableEq, Repr, Inhabited

/-- The configuration record (00_scope R8), without the colour library, which is made of functions. `backed` gives
`MemBacked` as the union of its regions: every set of addresses below 2^32 is one (entry 6). -/
structure Cfg where
  fbFormat : PixelFormat
  fbCols : Nat
  fbRows : Nat
  fbBase : Nat
  rowtab : List RowEntry
  backed : List Region
  /-- `PAL_MSB_FIRST`; the spec fixes `true` (00_scope R8, 40_primitives R136) -/
  palMsbFirst : Bool
deriving DecidableEq, Repr, Inhabited

/-- The configuration of the engine at hand: open (D17, D30, D31; entry 3). -/
opaque Config.boardRaw : Cfg

/-- The byte that address `a` holds, nothing having written it since reset number `epoch`: any value (93 U12,
entry 5). -/
opaque Config.powerOnByte (epoch a : Nat) : Byte

/-- The circular source row whose descriptor a destination row without a visited column asks for, where the source
offset `off` along y lies outside the source bounds of height `h` and the row is number `k` of the rectangle: any row,
since `srcY` is not defined there (40_primitives R145, 45_color8_to_color8 R242; entry 8). -/
opaque Config.openSourceRow (off k h : Int) : Int

/-- `grayscale` of the excluded colour library, where its laws do not fix it (40_primitives R130, R131; entry 4). -/
opaque Config.grayscaleRaw : Color → Color

/-- `alpha_blend` of the excluded colour library, where its laws do not fix it (40_primitives R130, R131; entry 4). -/
opaque Config.alphaBlendRaw : Color → Color → Color

/-- `tint_via_luminance` of the excluded colour library (40_primitives R130; entry 4). -/
opaque Config.tintViaLuminanceRaw : Color → Color → Color

/-- `get_bw` of the excluded colour library, where its laws do not fix it (40_primitives R130, R131; entry 4). -/
opaque Config.getBwRaw : Color → Color

/-- `equal` of the excluded colour library, where its laws do not fix it (40_primitives R130, R131; entry 4). -/
opaque Config.equalRaw : Color → Color → Bool

end Sys2Proof
end

