-- ==== Sys2Proof/Machine/Color.lean ====
section
/-! DEFINITION. Colours (40_primitives R126 to R129) and the colour library with its laws built in (R130 to R132). -/

namespace Sys2Proof.Machine

/-- `White` (40_primitives R127). -/
def white : Color := 0xFF

/-- `Black` (40_primitives R127). -/
def black : Color := 0xC0

/-- `alpha(c) = c[7:6]` (40_primitives R126). -/
def alpha (c : Color) : BitVec 2 := c.extractLsb' 6 2

/-- `withAlpha(c, a2)` (40_primitives R128). -/
def withAlpha (c : Color) (a2 : BitVec 2) : Color := a2 ++ c.extractLsb' 0 6

/-- `is_transparent(c)` (40_primitives R129). -/
def isTransparent (c : Color) : Bool := alpha c == 0

/-- `is_noop(op, tint)` (40_primitives R129). -/
def isNoopTint (op : CompOp) (tint : Color) : Bool :=
  (op == .tint || op == .tintLuminance) && isTransparent tint

/-- The colour library: total functions of their arguments alone (40_primitives R130). -/
structure ColorLib where
  grayscale : Color → Color
  alphaBlend : Color → Color → Color
  tintViaLuminance : Color → Color → Color
  getBw : Color → Color
  equal : Color → Color → Bool

/-- Two different colours that law L6 keeps apart, `a` being white or black (40_primitives R131). -/
def keptApart (a b : Color) : Bool :=
  (a == white || a == black) && (b == white || b == black || isTransparent b)

/-- A library made to obey laws L1 to L6 where they speak, and left as it is everywhere else; a library that obeys
them is left as it is everywhere (40_primitives R131, entry 4). -/
def lawfulLib (raw : ColorLib) : ColorLib where
  grayscale c := if c = white ∨ c = black then c else withAlpha (raw.grayscale c) (alpha c)
  alphaBlend src dst := if alpha src = 0 then dst else if alpha src = 3 then src else raw.alphaBlend src dst
  tintViaLuminance := raw.tintViaLuminance
  getBw c :=
    if c = white ∨ c = black then c
    else if alpha c = 0 then withAlpha (raw.getBw c) 0
    else raw.getBw c
  equal a b :=
    if a = b then true
    else if keptApart a b || keptApart b a then false
    else raw.equal a b || raw.equal b a

/-- `Cfg.ColorLib`: the engine's own colour library, any lawful one (40_primitives R130, R131; entry 4). -/
def engineLib : ColorLib := lawfulLib {
  grayscale := Config.grayscaleRaw
  alphaBlend := Config.alphaBlendRaw
  tintViaLuminance := Config.tintViaLuminanceRaw
  getBw := Config.getBwRaw
  equal := Config.equalRaw }

/-- One two-bit channel of a colour: `r` at 4, `g` at 2, `b` at 0 (40_primitives R126). -/
def channel (c : Color) (lo : Nat) : Nat := (c.extractLsb' lo 2).toNat

/-- `L(c)` of the reference library (40_primitives R132). -/
def refLuminance (c : Color) : Nat := (channel c 4 + channel c 2 + channel c 0) / 3

/-- One blended channel of the reference library at source alpha 1 or 2 (40_primitives R132). -/
def refBlendChannel (src dst : Color) (lo : Nat) : BitVec 2 :=
  BitVec.ofNat 2 ((channel src lo * (alpha src).toNat + channel dst lo * (3 - (alpha src).toNat)) / 3)

/-- `RefColorLib`, one library that obeys the laws, to run examples with (40_primitives R132). -/
def refColorLib : ColorLib where
  grayscale c :=
    let l := BitVec.ofNat 2 (refLuminance c)
    alpha c ++ l ++ l ++ l
  alphaBlend src dst :=
    if alpha src = 0 then dst
    else if alpha src = 3 then src
    else (3 : BitVec 2) ++ refBlendChannel src dst 4 ++ refBlendChannel src dst 2 ++ refBlendChannel src dst 0
  tintViaLuminance c tint := withAlpha (if 2 ≤ refLuminance c then white else tint) (alpha c)
  getBw c := if alpha c = 0 then 0 else if 2 ≤ refLuminance c then white else black
  equal a b := (isTransparent a && isTransparent b) || a == b

end Sys2Proof.Machine
end

