-- ==== Sys2Proof/Machine/Geometry.lean ====
section
/-! DEFINITION. Points, rectangles, clip and union on mathematical integers (40_primitives R120 to R123). -/

namespace Sys2Proof.Machine

/-- A point (40_primitives R120). -/
structure Point where
  x : Int
  y : Int
deriving DecidableEq, Repr

/-- A rectangle, origin and size flattened (40_primitives R120). -/
structure Rect where
  x : Int
  y : Int
  w : Int
  h : Int
deriving DecidableEq, Repr

/-- `max_x(r)`, an exclusive bound (40_primitives R120). -/
def maxX (r : Rect) : Int := r.x + r.w

/-- `max_y(r)`, an exclusive bound (40_primitives R120). -/
def maxY (r : Rect) : Int := r.y + r.h

/-- The pixel `(px, py)` is in `r` (40_primitives R120). -/
def inRect (r : Rect) (px py : Int) : Bool :=
  r.x ≤ px && px < maxX r && r.y ≤ py && py < maxY r

/-- A rectangle without a pixel: `w <= 0` or `h <= 0` (41_dispatch R161). -/
def isEmptyRect (r : Rect) : Bool := r.w ≤ 0 || r.h ≤ 0

/-- `clip(r, b)` (40_primitives R121). -/
def clipRect (r b : Rect) : Rect :=
  let x0 := max r.x b.x
  let y0 := max r.y b.y
  let x1 := min (maxX r) (maxX b)
  let y1 := min (maxY r) (maxY b)
  ⟨x0, y0, max 0 (x1 - x0), max 0 (y1 - y0)⟩

/-- `union(a, b)`, the bounding box of the corners with no test for emptiness (40_primitives R122). -/
def unionRect (a b : Rect) : Rect :=
  let x0 := min a.x b.x
  let y0 := min a.y b.y
  let x1 := max (maxX a) (maxX b)
  let y1 := max (maxY a) (maxY b)
  ⟨x0, y0, x1 - x0, y1 - y0⟩

/-- The integers from `lo` up to but not including `hi`, in increasing order (00_scope R15). -/
def intRange (lo hi : Int) : List Int := (List.range (hi - lo).toNat).map fun (i : Nat) => lo + (i : Int)

end Sys2Proof.Machine
end

