-- ==== Sys2Proof/Machine/Board.lean ====
section
/-! DEFINITION. What a configuration determines: bytes per row, bytes owned, the backed addresses, and when a
configuration is one the spec allows (10_state R45, 20_memory R60, 47_framebuffer R281, R282). -/

namespace Sys2Proof.Machine

/-- `bytes_per_row` of the linear back end, 0 for the circular one (47_framebuffer R281). -/
def bytesPerRow (c : Cfg) : Nat :=
  match c.fbFormat with
  | .mono1 => (c.fbCols / 32 + 1) * 4
  | .color8 => c.fbCols
  | .palette1 | .palette2 | .palette4 | .color8Circular | .reserved6 | .reserved7 => 0

/-- How many columns of a row of the table are stored (47_framebuffer R282). -/
def storedColumns (e : RowEntry) : Nat := e.maxX + 1 - e.minX

/-- `size_bytes`: the bytes the framebuffer owns (47_framebuffer R282). -/
def sizeBytes (c : Cfg) : Nat :=
  match c.fbFormat with
  | .color8Circular => ((c.rowtab.take c.fbRows).map storedColumns).sum
  | .mono1 | .color8 | .palette1 | .palette2 | .palette4 | .reserved6 | .reserved7 => bytesPerRow c * c.fbRows

/-- `MemBacked` (00_scope R8, 20_memory R60). -/
def isBacked (regions : List Region) (a : Nat) : Bool :=
  regions.any fun r => r.base ≤ a && a < r.base + r.size

/-- The formats a framebuffer may have (47_framebuffer R280). -/
def isFbFormat : PixelFormat → Bool
  | .mono1 | .color8 | .color8Circular => true
  | .palette1 | .palette2 | .palette4 | .reserved6 | .reserved7 => false

/-- The rows of the table are packed contiguously, the next stored byte being number `at_` (10_state R45). -/
def packedFrom (at_ : Int) : List RowEntry → Bool
  | [] => true
  | e :: es => e.offset + e.minX == at_ && packedFrom (e.offset + e.maxX + 1) es

/-- A well-formed row table (10_state R45). -/
def rowtabWf (tab : List RowEntry) : Bool :=
  tab.all (fun e => e.minX ≤ e.maxX && e.maxX ≤ 32767) && packedFrom 0 tab

/-- A configuration the spec allows (00_scope R8, 10_state R45, 47_framebuffer R280, R282). -/
def cfgWf (c : Cfg) : Bool :=
  isFbFormat c.fbFormat
    && (1 ≤ c.fbCols && c.fbCols ≤ 32767) && (1 ≤ c.fbRows && c.fbRows ≤ 32767)
    && c.fbBase % 4 == 0
    && rowtabWf c.rowtab
    && (c.fbFormat != .color8Circular
          || (c.rowtab.length == c.fbRows && c.rowtab.all fun e => e.maxX < c.fbCols))
    && c.fbBase + sizeBytes c ≤ 4294967296
    && (List.range (sizeBytes c)).all (fun (i : Nat) => isBacked c.backed (c.fbBase + i))
    && c.palMsbFirst

/-- A configuration of the spec's own examples (95 P1), here only to show that a well-formed one exists. -/
def exampleBoard : Cfg where
  fbFormat := .color8
  fbCols := 4
  fbRows := 2
  fbBase := 0x1000
  rowtab := []
  backed := [⟨0, 4294967296⟩]
  palMsbFirst := true

/-- The configuration of the engine at hand: any well-formed one, and nothing more can be proved of it (entry 3). -/
def board : Cfg := if cfgWf Config.boardRaw then Config.boardRaw else exampleBoard

end Sys2Proof.Machine
end

