-- ==== Sys2Proof/Machine/State.lean ====
section
/-! DEFINITION. The state of the engine as plain data (10_state R20 to R51), the reasons a step can stop, and the
state after reset (10_state R51, 70_reset R341). -/

namespace Sys2Proof.Machine

/-- PIXMEM as the bytes written since reset: pairs (address, byte), addresses strictly rising (20_memory R60). An
address not listed holds no value (10_state R51); what reading it gives is `readByte`'s to say (entry 5). -/
abbrev Memory := List Host.Cell

/-- One transfer on the ROW_OUT port (20_memory R66). -/
structure RowEvent where
  row : Int
  bytes : List Byte
deriving DecidableEq, Repr

/-- One action of the host, or the reset input, as the engine meets it (20_memory R70, 30_encoding R90, R106,
70_reset R340; entries 1, 2, 14). -/
inductive HostOp where
  /-- a register write at a byte offset (10_state R49); at offset 0 it issues a command -/
  | regWrite (off : Nat) (w : BitVec 32)
  /-- a register read at a byte offset (10_state R49) -/
  | regRead (off : Nat)
  /-- the host writes one byte of PIXMEM (20_memory R60) -/
  | memWrite (a : BitVec 32) (v : BitVec 8)
  /-- the host reads one byte of PIXMEM (20_memory R60) -/
  | memRead (a : BitVec 32)
  /-- a routine-level call by dispatch key: the model's own way to run one row over K (entry 2) -/
  | routineCall (k : BitVec 16)
  /-- the reset event, between commands (70_reset R340) -/
  | reset
deriving DecidableEq, Repr

/-- Why the machine stops at an access. -/
inductive Fault where
  /-- Raised by every access to a PIXMEM byte that no storage backs (20_memory R60, 93 U11). Safe: the model stops
  where the spec gives no meaning. -/
  | notBacked (a : Nat)
deriving DecidableEq, Repr

/-- Why the model gives an action no meaning. -/
inductive Refusal where
  /-- Raised by an arm of `exec` whose instruction has no meaning yet; no arm is left so. Safe. -/
  | notModelled (mnemonic : String)
  /-- Raised by `M1M1.Tint` and `M1M1.TintLuminance` called by key: no form exists (42_mono1_to_mono1 R189, 93 U14).
  Safe. -/
  | noMono1TintForm
  /-- Raised by a BLIT row that would visit a pixel with a negative coordinate in a rectangle or in bounds
  (40_primitives R148, 93 U4). Safe. -/
  | negativeCoordinates
  /-- Raised by a BLIT row that would visit a pixel while the offset is outside the source bounds (40_primitives R145,
  R146, 93 U6; entry 8). Safe. -/
  | offsetOutsideSource
  /-- Raised by a BLIT row that would visit a pixel outside the destination bounds (41_dispatch R167, 93 U3).
  Safe. -/
  | rectOutsideDestination
  /-- Raised by a BLIT row whose source or palette bytes meet its destination bytes (20_memory R72, 93 U5). Safe. -/
  | sourceMeetsDestination
  /-- Raised by `FB_NEXT_ROW` on a circular framebuffer whose next row has no table entry: no well-formed
  configuration and reachable state has one (47_framebuffer R296, R287). Safe. -/
  | rowOutsideTable
  /-- Raised by a routine-level call with a key of more than nine bits (30_encoding R104). Safe. -/
  | noSuchKey
deriving DecidableEq, Repr

/-- The architectural state (10_state R20), the configuration it stands beside (00_scope R8, entry 3) and the
model's own fields (entries 1, 5, 14). Reserved bits of a register are kept zero by every write (10_state R49). -/
structure State where
  /-- ARG0 (10_state R27) -/
  arg0 : Word
  /-- SRC_ADDR (R28) -/
  srcAddr : Word
  /-- SRC_FMT (R29) -/
  srcFmt : Word
  /-- SRC_ORG (R30) -/
  srcOrg : Word
  /-- SRC_SIZE (R31) -/
  srcSize : Word
  /-- SRC_PAL (R32) -/
  srcPal : Word
  /-- DST_ADDR (R33) -/
  dstAddr : Word
  /-- DST_FMT (R34) -/
  dstFmt : Word
  /-- DST_ORG (R35) -/
  dstOrg : Word
  /-- DST_SIZE (R36) -/
  dstSize : Word
  /-- RECT_ORG (R37) -/
  rectOrg : Word
  /-- RECT_SIZE (R38) -/
  rectSize : Word
  /-- OFFS (R39) -/
  offs : Word
  /-- CTRL (R40) -/
  ctrl : Word
  /-- STATUS (R24) -/
  status : Word
  /-- ERRLOG (R25) -/
  errlog : Word
  /-- RES0, RES1, RES2 (R26) -/
  res0 : Word
  res1 : Word
  res2 : Word
  /-- FB_DIRTY_ORG (R42) -/
  fbDirtyOrg : Word
  /-- FB_DIRTY_SIZE (R43) -/
  fbDirtySize : Word
  /-- FB_FLAGS (R44) -/
  fbFlags : Word
  /-- FB_CURSOR (R44) -/
  fbCursor : Word
  /-- PIXMEM (20_memory R60) -/
  mem : Memory
  /-- what ROW_OUT has transferred, oldest first (20_memory R66) -/
  rowOut : List RowEvent
  /-- the configuration, changed by nothing (10_state R20, entry 3) -/
  cfg : Cfg
  /-- MODEL'S OWN: the host's actions still to happen, in order (entry 1) -/
  inbox : List HostOp
  /-- MODEL'S OWN: what the last host read returned (entry 14) -/
  readData : Word
  /-- MODEL'S OWN: how many resets have happened (entry 5) -/
  epoch : Nat
deriving DecidableEq, Repr

/-- The machine right after reset (10_state R51, 70_reset R341). -/
def State.reset : State where
  arg0 := 0
  srcAddr := 0
  srcFmt := 0
  srcOrg := 0
  srcSize := 0
  srcPal := 0
  dstAddr := 0
  dstFmt := 0
  dstOrg := 0
  dstSize := 0
  rectOrg := 0
  rectSize := 0
  offs := 0
  ctrl := 0
  status := 0
  errlog := 0
  res0 := 0
  res1 := 0
  res2 := 0
  fbDirtyOrg := 0
  fbDirtySize := 0
  fbFlags := 0
  fbCursor := 0
  mem := []
  rowOut := []
  cfg := board
  inbox := []
  readData := 0
  epoch := 0

end Sys2Proof.Machine
end

