-- ==== Sys2Proof/Machine/Operands.lean ====
section
/-! DEFINITION. The operand registers' word formats (30_encoding R90 to R94, R98) and the record views a command
reads when it starts (10_state R48). -/

namespace Sys2Proof.Machine

/-- `sext_16(w[15:0])` (30_encoding R91, R92, R98). -/
def lowField (w : Word) : Int := (w.extractLsb' 0 16).toInt

/-- `sext_16(w[31:16])` (30_encoding R91, R92, R98). -/
def highField (w : Word) : Int := (w.extractLsb' 16 16).toInt

/-- A PT or SZ word from its two fields (30_encoding R91, R92, R107). -/
def packFields (lo hi : Int) : Word := BitVec.ofInt 16 hi ++ BitVec.ofInt 16 lo

/-- `FORMAT` of a FMTW word (30_encoding R93). -/
def formatField (w : Word) : PixelFormat := fmtOfCode (w.extractLsb' 0 3)

/-- `STRIDE` of a FMTW word, zero-extended (30_encoding R93, R98). -/
def strideField (w : Word) : Nat := (w.extractLsb' 16 16).toNat

/-- `OP` of a CTRLW word (30_encoding R94). -/
def opField (w : Word) : CompOp := opOfCode (w.extractLsb' 0 3)

/-- `TINT` of a CTRLW word (30_encoding R94). -/
def tintField (w : Word) : Color := w.extractLsb' 8 8

/-- The bits of a FMTW register that are not reserved (30_encoding R93). -/
def fmtMask : Word := 0xFFFF0007

/-- The bits of CTRL that are not reserved (30_encoding R94). -/
def ctrlMask : Word := 0x0000FF07

/-- The bits of ARG0 that are not reserved (10_state R27). -/
def argMask : Word := 0x0000FFFF

/-- A bitmap descriptor (00_scope R12). -/
structure Bitmap where
  format : PixelFormat
  addr : Nat
  stride : Nat
  bounds : Rect
  palette : Nat
deriving DecidableEq, Repr

/-- The operands of a BLIT but for the operator (10_state R48, 41_dispatch R160). -/
structure BlitArgs where
  src : Bitmap
  dst : Bitmap
  rect : Rect
  off : Point
  tint : Color
deriving DecidableEq, Repr

/-- A rectangle from an origin and a size register (10_state R48). -/
def rectOf (org size : Word) : Rect := ⟨lowField org, highField org, lowField size, highField size⟩

/-- The source bitmap `S` (10_state R48). -/
def srcBitmap (s : State) : Bitmap :=
  ⟨formatField s.srcFmt, s.srcAddr.toNat, strideField s.srcFmt, rectOf s.srcOrg s.srcSize, s.srcPal.toNat⟩

/-- The destination bitmap `D`, which has no palette (10_state R48, R36). -/
def dstBitmap (s : State) : Bitmap :=
  ⟨formatField s.dstFmt, s.dstAddr.toNat, strideField s.dstFmt, rectOf s.dstOrg s.dstSize, 0⟩

/-- The operands of `BLIT` (10_state R48, 41_dispatch R161). -/
def blitArgs (s : State) : BlitArgs where
  src := srcBitmap s
  dst := dstBitmap s
  rect := rectOf s.rectOrg s.rectSize
  off := ⟨lowField s.offs, highField s.offs⟩
  tint := tintField s.ctrl

/-- The operands of `BLIT_AT`: OFFS is the destination point, the rectangle is the source bounds' size there, clipped
to the destination's bounds, and the source offset is zero (41_dispatch R168). -/
def blitAtArgs (s : State) : BlitArgs :=
  let a := blitArgs s
  { a with
    rect := clipRect ⟨a.off.x, a.off.y, a.src.bounds.w, a.src.bounds.h⟩ a.dst.bounds
    off := ⟨0, 0⟩ }

/-- The operands of a row over the dispatch key: those of `BLIT`, with the formats the key gives (30_encoding R104,
entry 2). -/
def rowArgs (s : State) (d f : PixelFormat) : BlitArgs :=
  let a := blitArgs s
  { a with src := { a.src with format := f }, dst := { a.dst with format := d } }

end Sys2Proof.Machine
end

