-- ==== Sys2Proof/Machine/Flags.lean ====
section
/-! DEFINITION. The status flags: result codes, fatal causes, STATUS, ERRLOG and FB_FLAGS (10_state R24, R25, R44, R50,
30_encoding R103). -/

namespace Sys2Proof.Machine

/-- The result codes a command can end with (30_encoding R103). -/
inductive ResultCode where
  | ok | unsupportedFormatPair | missingPalette | unsupportedOperator | noRow | illegalCmd
deriving DecidableEq, Repr

/-- The causes of the fatal halt (10_state R24, 60_exceptions R318). -/
inductive FatalCause where
  | rowIndexOutOfBounds | unalignedBuffer
deriving DecidableEq, Repr

/-- The number of a result code (30_encoding R103). -/
def codeBits : ResultCode → BitVec 4
  | .ok => 0 | .unsupportedFormatPair => 1 | .missingPalette => 2
  | .unsupportedOperator => 3 | .noRow => 4 | .illegalCmd => 5

/-- The number of a fatal cause (10_state R24). -/
def causeBits : FatalCause → BitVec 4
  | .rowIndexOutOfBounds => 1 | .unalignedBuffer => 2

/-- `STATUS.CODE`, bits 3:0 (10_state R24). -/
def statusCode (st : Word) : BitVec 4 := st.extractLsb' 0 4

/-- `STATUS.FCAUSE`, bits 11:8 (10_state R24). -/
def statusCause (st : Word) : BitVec 4 := st.extractLsb' 8 4

/-- `STATUS.FATAL`, bit 31 (10_state R24). -/
def statusFatal (st : Word) : Bool := st.getLsbD 31

/-- STATUS with `CODE` written, every other bit kept (10_state R24). -/
def withCode (st : Word) (c : ResultCode) : Word := st.extractLsb' 4 28 ++ codeBits c

/-- STATUS with `FATAL` set and `FCAUSE` written, every other bit kept (60_exceptions R318). -/
def withFatal (st : Word) (c : FatalCause) : Word :=
  (1 : BitVec 1) ++ st.extractLsb' 12 19 ++ causeBits c ++ st.extractLsb' 0 8

/-- The ERRLOG bit a result code sets: bits 1, 3 and 5 only (10_state R25, 30_encoding R103). -/
def logBit : ResultCode → Word
  | .unsupportedFormatPair => 0x02
  | .unsupportedOperator => 0x08
  | .illegalCmd => 0x20
  | .ok | .missingPalette | .noRow => 0

/-- `FB_FLAGS.IS_DIRTY`, bit 0 (10_state R44). -/
def isDirtyFlag (f : Word) : Bool := f.getLsbD 0

end Sys2Proof.Machine
end

