-- ==== Sys2Proof/Machine/Ops.lean ====
section
/-! DEFINITION. The named operations over PIXMEM (20_memory R60 to R62, R77) and over registers: ending a command,
raising an error (60_exceptions R311), the fatal halt (R318), the command-acceptance test (R320) and reset
(70_reset R340, R341), the only return from the halt (60_exceptions R324). -/

namespace Sys2Proof.Machine

/-- What a step or a meaning answers. -/
abbrev Answer := Host.Outcome State Fault Refusal

/-- Why a memory access or a routine stops. -/
inductive Stop where
  | fault (f : Fault)
  | refuse (r : Refusal)
deriving DecidableEq, Repr

/-- A stop as the answer of a step. -/
def stopAnswer : Stop → Answer
  | .fault f => .fault f
  | .refuse r => .refused r

/-! ### PIXMEM -/

/-- The byte listed at an address, none where nothing has been written since reset (10_state R51). -/
def memGet : Memory → Nat → Option Byte
  | [], _ => none
  | (k, v) :: m, a => if a = k then some v else memGet m a

/-- A byte written, the addresses kept strictly rising (20_memory R69). -/
def memSet : Memory → Nat → Byte → Memory
  | [], a, v => [(a, v)]
  | (k, w) :: m, a, v =>
    if a < k then (a, v) :: (k, w) :: m
    else if a = k then (a, v) :: m
    else (k, w) :: memSet m a v

/-- Every listed address is above `lo` and they rise strictly. -/
def risingFrom : Nat → Memory → Bool
  | _, [] => true
  | lo, (k, _) :: m => lo ≤ k && risingFrom (k + 1) m

/-- The canonical form: addresses strictly rising and inside the address space (20_memory R60). An unlisted address
reads as a free value and no entry can be compared with it, so no entry is left out for its value (entry 5). -/
def memWf (m : Memory) : Bool := risingFrom 0 m && m.all fun c => c.1 < 4294967296

/-- What an access to PIXMEM depends on beside the bytes: the backed addresses, the resets so far and the packing
order of palette pixels (00_scope R8). -/
structure PixEnv where
  backed : List Region
  epoch : Nat
  palMsbFirst : Bool
deriving DecidableEq, Repr

/-- The access environment of a state. -/
def pixEnv (s : State) : PixEnv := ⟨s.cfg.backed, s.epoch, s.cfg.palMsbFirst⟩

/-- An address reduced modulo 2^32 (20_memory R77). -/
def pixAddr (a : Int) : Nat := (a % 4294967296).toNat

/-- The byte at a reduced address: the one written last, or the free power-on value (20_memory R69, 93 U12,
entry 5). -/
def peek (epoch : Nat) (m : Memory) (a : Nat) : Byte := (memGet m a).getD (Config.powerOnByte epoch a)

/-- `MemRead(a, 1)` (00_scope R11). -/
def readByte (e : PixEnv) (m : Memory) (a : Int) : Except Stop Byte :=
  if isBacked e.backed (pixAddr a) then .ok (peek e.epoch m (pixAddr a))
  else .error (.fault (.notBacked (pixAddr a)))

/-- `MemWrite(a, 1, v)` (00_scope R11). -/
def writeByte (e : PixEnv) (m : Memory) (a : Int) (v : Byte) : Except Stop Memory :=
  if isBacked e.backed (pixAddr a) then .ok (memSet m (pixAddr a) v)
  else .error (.fault (.notBacked (pixAddr a)))

/-- `MemRead(a, 4)`, little-endian (20_memory R62). -/
def readWord (e : PixEnv) (m : Memory) (a : Int) : Except Stop Word := do
  let b0 ← readByte e m a
  let b1 ← readByte e m (a + 1)
  let b2 ← readByte e m (a + 2)
  let b3 ← readByte e m (a + 3)
  return b3 ++ b2 ++ b1 ++ b0

/-- `MemWrite(a, 4, v)`, little-endian (20_memory R62). -/
def writeWord (e : PixEnv) (m : Memory) (a : Int) (v : Word) : Except Stop Memory := do
  let m ← writeByte e m a (v.extractLsb' 0 8)
  let m ← writeByte e m (a + 1) (v.extractLsb' 8 8)
  let m ← writeByte e m (a + 2) (v.extractLsb' 16 8)
  writeByte e m (a + 3) (v.extractLsb' 24 8)

/-- `n` bytes from address `a` on set to `v`; the bytes are backed by configuration (47_framebuffer R282, R284;
entry 13). -/
def fillBytes (m : Memory) (a : Nat) (v : Byte) : Nat → Memory
  | 0 => m
  | n + 1 => fillBytes (memSet m (pixAddr a) v) (a + 1) v n

/-- `n` bytes read from address `a` upward (47_framebuffer R296). -/
def readBytes (e : PixEnv) (m : Memory) (a : Int) : Nat → Except Stop (List Byte)
  | 0 => .ok []
  | n + 1 => do
    let b ← readByte e m a
    let bs ← readBytes e m (a + 1) n
    return b :: bs

/-! ### Words (00_scope R10) -/

/-- `rotl32(v, n)` for `0 <= n <= 31` (00_scope R10). -/
def rotl32 (v : Word) (n : Nat) : Word := if n = 0 then v else (v <<< n) ||| (v >>> (32 - n))

/-- `mask(n, p)`: the bits `p .. p+n-1` (00_scope R10). -/
def maskBits (n p : Nat) : Word := BitVec.ofNat 32 (2 ^ n - 1) <<< p

/-! ### How a command ends -/

/-- The state with PIXMEM replaced. -/
def setMem (s : State) (m : Memory) : State := { s with mem := m }

/-- The command ends with `OK` (10_state R24, 60_exceptions R310). -/
def endOk (s : State) : State := { s with status := withCode s.status .ok }

/-- `raise E` for a non-fatal error or an interface result (60_exceptions R311). -/
def raiseError (c : ResultCode) (s : State) : State :=
  { s with status := withCode s.status c, errlog := s.errlog ||| logBit c }

/-- `raise Fatal(cause)`: the halt is entered, CODE is kept (60_exceptions R318). -/
def raiseFatal (c : FatalCause) (s : State) : State := { s with status := withFatal s.status c }

/-- The command-acceptance test: in the fatal halt a command executes nothing and changes nothing (60_exceptions R318,
R320). -/
def whenAccepting (s : State) (meaning : State → Answer) : Answer :=
  if statusFatal s.status then .next s else meaning s

/-- The reset event: every register at its reset value, no byte of PIXMEM with a value, the configuration kept
(70_reset R340, R341; entry 16). -/
def resetEvent (s : State) : State :=
  { State.reset with
    cfg := s.cfg, rowOut := s.rowOut, inbox := s.inbox, readData := s.readData, epoch := s.epoch + 1 }

end Sys2Proof.Machine
end

