-- ==== Sys2Proof/Machine/Unpack.lean ====
section
/-! DEFINITION. The pixel unpacker: Mono1 words, palette indices and palette entries (40_primitives R135 to R138). -/

namespace Sys2Proof.Machine

/-- Bits per pixel (30_encoding R95). -/
def bpp : PixelFormat → Nat
  | .mono1 | .palette1 => 1
  | .palette2 => 2
  | .palette4 => 4
  | .color8 | .color8Circular => 8
  | .reserved6 | .reserved7 => 0

/-- `mono_word_addr(B, k, y)` (40_primitives R135). -/
def monoWordAddr (b : Bitmap) (k y : Int) : Int := b.addr + y * b.stride + 4 * k

/-- `mono_bit(B, x, y)` (40_primitives R135). -/
def monoBit (e : PixEnv) (m : Memory) (b : Bitmap) (x y : Int) : Except Stop Bool := do
  let w ← readWord e m (monoWordAddr b (x / 32) y)
  return w.getLsbD (x % 32).toNat

/-- The address of the byte that holds the index of a palette pixel (40_primitives R136). -/
def palByteAddr (b : Bitmap) (x y : Int) : Int := b.addr + y * b.stride + (x * bpp b.format) / 8

/-- How far the index of pixel `x` stands from bit 0 of its byte (40_primitives R136). -/
def palShift (msbFirst : Bool) (n : Nat) (x : Int) : Nat :=
  let ppb := 8 / n
  let k := (x % ppb).toNat
  (if msbFirst then ppb - 1 - k else k) * n

/-- `pal_index(B, x, y)` (40_primitives R136). -/
def palIndex (e : PixEnv) (m : Memory) (b : Bitmap) (x y : Int) : Except Stop Nat := do
  let v ← readByte e m (palByteAddr b x y)
  return (v >>> palShift e.palMsbFirst (bpp b.format) x).toNat % 2 ^ bpp b.format

/-- `pal_color(S, i)` (40_primitives R137). -/
def palColor (e : PixEnv) (m : Memory) (b : Bitmap) (i : Nat) : Except Stop Color :=
  readByte e m (b.palette + i)

/-- A Mono1 bitmap whose rows all start at a word boundary (20_memory R68). -/
def isAligned (b : Bitmap) : Bool := b.addr % 4 == 0 && b.stride % 4 == 0

end Sys2Proof.Machine
end

