-- ==== Sys2Proof/Machine/Rows.lean ====
section
/-! DEFINITION. Row descriptors, destination windows, tiling and the pixels a BLIT visits: the geometry of a routine,
which depends on the operands and the row table alone (40_primitives R140 to R148, 41_dispatch R171). -/

namespace Sys2Proof.Machine

/-- A row descriptor (00_scope R12, 40_primitives R140). -/
structure RowInfo where
  dataPtr : Int
  minX : Int
  maxX : Int
deriving DecidableEq, Repr

/-- `RowInfo(B, y)`; none where the circular row index is out of bounds, a fatal assertion (40_primitives R141,
R142). -/
def rowInfo (tab : List RowEntry) (b : Bitmap) (y : Int) : Option RowInfo :=
  if b.format = .color8Circular then
    if y < 0 then none
    else (tab[y.toNat]?).map fun e => ⟨b.addr + e.offset, e.minX, e.maxX⟩
  else some ⟨b.addr + y * b.stride, 0, b.bounds.x + b.bounds.w - 1⟩

/-- `srcY(dy)` (40_primitives R145). -/
def srcY (a : BlitArgs) (dy : Int) : Int :=
  a.src.bounds.y + (a.off.y + (dy - a.rect.y)) % a.src.bounds.h

/-- `srcX(dx)` (40_primitives R146). -/
def srcX (a : BlitArgs) (dx : Int) : Int :=
  a.src.bounds.x + (a.off.x + (dx - a.rect.x)) % a.src.bounds.w

/-- How the walk over the rows ends before its last row. -/
inductive RowStop where
  | fatal (c : FatalCause)
  | refuse (r : Refusal)
deriving DecidableEq, Repr

/-- The visited columns `lo <= dx < hi` of a destination row and, for an 8-bit destination, its data pointer
(40_primitives R143). -/
structure DstRow where
  dataPtr : Int
  lo : Int
  hi : Int
deriving DecidableEq, Repr

/-- The destination row: the whole rectangle for Mono1, the row window for an 8-bit destination (42 R181, 43 R204,
40_primitives R143). -/
def dstRow (tab : List RowEntry) (a : BlitArgs) (dy : Int) : Except RowStop DstRow :=
  if a.dst.format = .mono1 then .ok ⟨0, a.rect.x, a.rect.x + a.rect.w⟩
  else
    match rowInfo tab a.dst dy with
    | none => .error (.fatal .rowIndexOutOfBounds)
    | some r => .ok ⟨r.dataPtr, max r.minX a.rect.x, min (a.rect.x + a.rect.w) (r.maxX + 1)⟩

/-- The source offset lies inside the source bounds along one axis (40_primitives R145, R146). -/
def offsetInside (off size : Int) : Bool := 0 ≤ off && off < size

/-- The source row whose descriptor destination row `dy` asks for: `srcY(dy)`, and a free value where the offset leaves
`srcY` undefined (40_primitives R145; entry 8). -/
def descriptorRow (a : BlitArgs) (dy : Int) : Int :=
  if offsetInside a.off.y a.src.bounds.h then srcY a dy
  else Config.openSourceRow a.off.y (dy - a.rect.y) a.src.bounds.h

/-- The source row: for a circular source its descriptor, asked for also where the row has no visited column
(45_color8_to_color8 R242); for a linear 8-bit source its data pointer; for any other format nothing. A row that visits
a column has no source row when the offset leaves `srcY` undefined: `rowContract` refuses that row (93 U6). -/
def srcRow (tab : List RowEntry) (a : BlitArgs) (dy : Int) (visits : Bool) : Except RowStop (Option RowInfo) :=
  if a.src.format = .color8Circular then
    if visits && !offsetInside a.off.y a.src.bounds.h then .ok none
    else
      match rowInfo tab a.src (descriptorRow a dy) with
      | none => .error (.fatal .rowIndexOutOfBounds)
      | some r => .ok (some r)
  else if a.src.format = .color8 then .ok (rowInfo tab a.src (srcY a dy))
  else .ok none

/-- The caller's obligations that a row with a visited pixel rests on (40_primitives R145, R146, R148, 41_dispatch
R167, 93 U3, U4, U6; entries 7, 10). -/
def rowContract (a : BlitArgs) (dy lo hi : Int) : Except RowStop Unit :=
  let sb := a.src.bounds
  let db := a.dst.bounds
  if a.rect.x < 0 || a.rect.y < 0 || sb.x < 0 || sb.y < 0 || sb.w < 0 || sb.h < 0 || db.x < 0 || db.y < 0
      || db.w < 0 || db.h < 0 then
    .error (.refuse .negativeCoordinates)
  else if !(offsetInside a.off.x sb.w && offsetInside a.off.y sb.h) then .error (.refuse .offsetOutsideSource)
  else if !(db.x ≤ lo && hi ≤ maxX db && db.y ≤ dy && dy < maxY db) then .error (.refuse .rectOutsideDestination)
  else .ok ()

/-- A visited pixel that is not skipped: where it lies, where its source pixel lies, and for 8-bit bitmaps the data
pointers of the two rows (00_scope R14). -/
structure Px where
  dx : Int
  dy : Int
  sx : Int
  sy : Int
  dstPtr : Int
  srcPtr : Int
deriving DecidableEq, Repr

/-- The source window test: only a circular source row lacks storage at a column of its bounds (40_primitives
R147). -/
def sourceStored (f : PixelFormat) (r : Option RowInfo) (sx : Int) : Bool :=
  match f, r with
  | .color8Circular, some i => i.minX ≤ sx && sx ≤ i.maxX
  | _, _ => true

/-- The pixel at destination column `dx`, none where it is skipped (40_primitives R146, R147). -/
def pixelAt (a : BlitArgs) (dy : Int) (d : DstRow) (r : Option RowInfo) (dx : Int) : Option Px :=
  let sx := srcX a dx
  if sourceStored a.src.format r sx then
    some ⟨dx, dy, sx, srcY a dy, d.dataPtr, (r.map RowInfo.dataPtr).getD 0⟩
  else none

/-- The pixels of one destination row of a rectangle that is not empty: its descriptor, then the source row's, then the
pixels; both descriptors are asked for also where the row has no visited column (41_dispatch R171, 45 R242,
60_exceptions R320; entries 8, 19). -/
def rowPixels (tab : List RowEntry) (a : BlitArgs) (dy : Int) : Except RowStop (List Px) := do
  let d ← dstRow tab a dy
  let r ← srcRow tab a dy (d.lo < d.hi)
  if d.hi ≤ d.lo then return []
  rowContract a dy d.lo d.hi
  return (intRange d.lo d.hi).filterMap (pixelAt a dy d r)

/-- What a routine visits, in order, and how the walk ends if not after the last row. -/
structure Plan where
  pixels : List Px
  stop : Option RowStop
deriving DecidableEq, Repr

/-- The plan of a list of rows: the walk ends at the first row that stops (60_exceptions R320). -/
def planRows (tab : List RowEntry) (a : BlitArgs) : List Int → Plan
  | [] => ⟨[], none⟩
  | dy :: rest =>
    match rowPixels tab a dy with
    | .error x => ⟨[], some x⟩
    | .ok px =>
      let p := planRows tab a rest
      ⟨px ++ p.pixels, p.stop⟩

/-- The row loop of 44 R221, 45 R242 and 46 R261 as it stands: every row from `rect.y` to below `rect.y + rect.h` asks
for its descriptors, also where `rect.w <= 0` leaves it no column (00_scope R15, 60_exceptions R320). -/
def rowLoop (tab : List RowEntry) (a : BlitArgs) : Plan := planRows tab a (intRange a.rect.y (maxY a.rect))

/-- The plan of a BLIT: the row loop, and nothing for an empty rectangle. 41_dispatch R161 says that an empty rectangle
raises no row-index assertion, where the row loop and the order of 60_exceptions R320 evaluate the descriptors of its
rows (DEDUCED, entry 19). -/
def blitPlan (tab : List RowEntry) (a : BlitArgs) : Plan :=
  if isEmptyRect a.rect then ⟨[], none⟩ else rowLoop tab a

/-! ### Footprints (20_memory R72, R78) -/

/-- The four bytes of a word. -/
def wordBytes (a : Int) : List Nat := [pixAddr a, pixAddr (a + 1), pixAddr (a + 2), pixAddr (a + 3)]

/-- The destination address of a pixel: its word for Mono1, its byte otherwise (40_primitives R135, R138). -/
def dstAddr (b : Bitmap) (p : Px) : Int :=
  if b.format = .mono1 then monoWordAddr b (p.dx / 32) p.dy else p.dstPtr + p.dx

/-- The bytes through which a pixel is written (20_memory R78). -/
def dstBytes (b : Bitmap) (p : Px) : List Nat :=
  if b.format = .mono1 then wordBytes (dstAddr b p) else [pixAddr (dstAddr b p)]

/-- The bytes read as source data for a pixel (20_memory R67). -/
def srcBytes (b : Bitmap) (p : Px) : List Nat :=
  match b.format with
  | .mono1 => wordBytes (monoWordAddr b (p.sx / 32) p.sy)
  | .palette1 | .palette2 | .palette4 => [pixAddr (palByteAddr b p.sx p.sy)]
  | .color8 | .color8Circular | .reserved6 | .reserved7 => [pixAddr (p.srcPtr + p.sx)]

/-- The bytes of the source's palette (40_primitives R137). -/
def paletteBytes (b : Bitmap) : List Nat :=
  match b.format with
  | .palette1 | .palette2 | .palette4 => (List.range (2 ^ bpp b.format)).map fun (i : Nat) => pixAddr (b.palette + i)
  | .mono1 | .color8 | .color8Circular | .reserved6 | .reserved7 => []

/-- A byte that a pixel of the list may write is one that the routine may read through the source (20_memory R72,
entry 9). -/
def footprintsMeet (a : BlitArgs) (px : List Px) : Bool :=
  px.any fun q => (dstBytes a.dst q).any fun b =>
    (paletteBytes a.src).contains b || px.any fun p => (srcBytes a.src p).contains b

end Sys2Proof.Machine
end

