-- ==== Sys2Proof/Machine/Blit.lean ====
section
/-! DEFINITION. The body shared by the five routines: the pixels of the plan in order, then the end of the command
(41_dispatch R170, R171, 60_exceptions R314, R318). -/

namespace Sys2Proof.Machine

/-- The pixels of a list, one after another (20_memory R71). -/
def runPixels (f : Px → Memory → Except Stop Memory) : List Px → Memory → Except Stop Memory
  | [], m => .ok m
  | p :: ps, m =>
    match f p m with
    | .error x => .error x
    | .ok m' => runPixels f ps m'

/-- The end of a routine whose walk over the rows ended so: `OK`, the fatal halt with the writes made staying, or no
meaning (41_dispatch R170, 60_exceptions R318). -/
def endRows (stop : Option RowStop) (s : State) : Answer :=
  match stop with
  | none => .next (endOk s)
  | some (.fatal c) => .next (raiseFatal c s)
  | some (.refuse r) => .refused r

/-- A routine's loop: the plan's pixels through `f`, then the end (41_dispatch R171). -/
def runBlit (f : Px → Memory → Except Stop Memory) (a : BlitArgs) (s : State) : Answer :=
  let p := blitPlan s.cfg.rowtab a
  if footprintsMeet a p.pixels then .refused .sourceMeetsDestination
  else
    match runPixels f p.pixels s.mem with
    | .error x => stopAnswer x
    | .ok m => endRows p.stop (setMem s m)

/-- A routine whose operator is not permitted: the error at the first visited pixel, after `look` has read its
source; with no pixel visited the walk ends as it ends (60_exceptions R314, R320; entry 18). -/
def rejectBlit (look : Px → Memory → Except Stop Unit) (a : BlitArgs) (s : State) : Answer :=
  let p := blitPlan s.cfg.rowtab a
  match p.pixels with
  | [] => endRows p.stop s
  | q :: _ =>
    match look q s.mem with
    | .error x => stopAnswer x
    | .ok _ => .next (raiseError .unsupportedOperator s)

/-- The palette check of a palette-source routine (43 R200, 44 R220, 60_exceptions R313). -/
def withPalette (a : BlitArgs) (s : State) (rest : State → Answer) : Answer :=
  if a.src.palette = 0 then .next (raiseError .missingPalette s) else rest s

/-- The entry assertion of a routine that touches a Mono1 bitmap (20_memory R68, 60_exceptions R319). -/
def withAlignment (ok : Bool) (s : State) (rest : State → Answer) : Answer :=
  if ok then rest s else .next (raiseFatal .unalignedBuffer s)

end Sys2Proof.Machine
end

