-- ==== Sys2Proof/Machine/PaletteColor8.lean ====
section
/-! DEFINITION. Routine PALC8, Palette1, Palette2 or Palette4 to Color8 or Color8Circular (44_palette_to_color8 R220 to R230). -/

namespace Sys2Proof.Machine

/-- What a routine does with a source colour and the address of the destination byte (44_palette_to_color8 R222). -/
abbrev Combine := PixEnv → Color → Int → Memory → Except Stop Memory

/-- `combine8(Assign, ...)`: the destination byte is not read (44 R222, R223). -/
def combineCopy : Combine := fun e src at_ m => writeByte e m at_ src

/-- `combine8` of an operator that blends `paint src` over the destination (44 R222). -/
def combineBlend (lib : ColorLib) (paint : Color → Color) : Combine := fun e src at_ m => do
  let dst ← readByte e m at_
  writeByte e m at_ (lib.alphaBlend (paint src) dst)

/-- The tint's hue with the source pixel's alpha (44 R222, 40_primitives R128). -/
def tintPaint (tint src : Color) : Color := withAlpha tint (alpha src)

/-- The luminance table's colour with the source pixel's alpha; `lut[src]` is `tint_via_luminance(src, tint)`
(44 R222, R226). -/
def luminancePaint (lib : ColorLib) (tint src : Color) : Color :=
  withAlpha (lib.tintViaLuminance src tint) (alpha src)

/-- One visited pixel: the palette colour of the source pixel, combined (44 R221). -/
def palc8Pixel (combine : Combine) (e : PixEnv) (a : BlitArgs) (p : Px) (m : Memory) : Except Stop Memory := do
  let i ← palIndex e m a.src p.sx p.sy
  let c ← palColor e m a.src i
  combine e c (dstAddr a.dst p) m

/-- Routine PALC8 with a permitted operator (44 R220, R221). -/
def palc8 (combine : Combine) (a : BlitArgs) (s : State) : Answer :=
  withPalette a s fun s => runBlit (palc8Pixel combine (pixEnv s) a) a s

/-- What PALC8 has read when it meets an operator that is not permitted: the index and the palette entry
(44 R228). -/
def palc8Look (e : PixEnv) (a : BlitArgs) (p : Px) (m : Memory) : Except Stop Unit := do
  let i ← palIndex e m a.src p.sx p.sy
  let _ ← palColor e m a.src i
  return ()

/-- Routine PALC8 with an operator that is not permitted (44 R228). -/
def palc8Rejected (a : BlitArgs) (s : State) : Answer :=
  withPalette a s fun s => rejectBlit (palc8Look (pixEnv s) a) a s

/-! ### The rows of the opcode table -/

/-- `PALC8.Assign.P1` (R223). -/
def palc8AssignP1 (a : BlitArgs) (s : State) : Answer :=
  palc8 combineCopy a s

/-- `PALC8.Assign.P1` run by itself (R223; entry 2). -/
def execPalc8AssignP1 (d : PixelFormat) (s : State) : Answer :=
  whenAccepting s fun s => palc8AssignP1 (rowArgs s d .palette1) s

/-- `PALC8.Assign.P24` (R223). -/
def palc8AssignP24 (a : BlitArgs) (s : State) : Answer :=
  palc8 combineCopy a s

/-- `PALC8.Assign.P24` run by itself (R223; entry 2). -/
def execPalc8AssignP24 (d : PixelFormat) (f : PixelFormat) (s : State) : Answer :=
  whenAccepting s fun s => palc8AssignP24 (rowArgs s d f) s

/-- `PALC8.AssignInverted.P1` (R228). -/
def palc8AssignInvertedP1 (a : BlitArgs) (s : State) : Answer :=
  palc8Rejected a s

/-- `PALC8.AssignInverted.P1` run by itself (R228; entry 2). -/
def execPalc8AssignInvertedP1 (d : PixelFormat) (s : State) : Answer :=
  whenAccepting s fun s => palc8AssignInvertedP1 (rowArgs s d .palette1) s

/-- `PALC8.AssignInverted.P24` (R228). -/
def palc8AssignInvertedP24 (a : BlitArgs) (s : State) : Answer :=
  palc8Rejected a s

/-- `PALC8.AssignInverted.P24` run by itself (R228; entry 2). -/
def execPalc8AssignInvertedP24 (d : PixelFormat) (f : PixelFormat) (s : State) : Answer :=
  whenAccepting s fun s => palc8AssignInvertedP24 (rowArgs s d f) s

/-- `PALC8.Or.P1` (R228). -/
def palc8OrP1 (a : BlitArgs) (s : State) : Answer :=
  palc8Rejected a s

/-- `PALC8.Or.P1` run by itself (R228; entry 2). -/
def execPalc8OrP1 (d : PixelFormat) (s : State) : Answer :=
  whenAccepting s fun s => palc8OrP1 (rowArgs s d .palette1) s

/-- `PALC8.Or.P24` (R228). -/
def palc8OrP24 (a : BlitArgs) (s : State) : Answer :=
  palc8Rejected a s

/-- `PALC8.Or.P24` run by itself (R228; entry 2). -/
def execPalc8OrP24 (d : PixelFormat) (f : PixelFormat) (s : State) : Answer :=
  whenAccepting s fun s => palc8OrP24 (rowArgs s d f) s

/-- `PALC8.And.P1` (R228). -/
def palc8AndP1 (a : BlitArgs) (s : State) : Answer :=
  palc8Rejected a s

/-- `PALC8.And.P1` run by itself (R228; entry 2). -/
def execPalc8AndP1 (d : PixelFormat) (s : State) : Answer :=
  whenAccepting s fun s => palc8AndP1 (rowArgs s d .palette1) s

/-- `PALC8.And.P24` (R228). -/
def palc8AndP24 (a : BlitArgs) (s : State) : Answer :=
  palc8Rejected a s

/-- `PALC8.And.P24` run by itself (R228; entry 2). -/
def execPalc8AndP24 (d : PixelFormat) (f : PixelFormat) (s : State) : Answer :=
  whenAccepting s fun s => palc8AndP24 (rowArgs s d f) s

/-- `PALC8.Clear.P1` (R228). -/
def palc8ClearP1 (a : BlitArgs) (s : State) : Answer :=
  palc8Rejected a s

/-- `PALC8.Clear.P1` run by itself (R228; entry 2). -/
def execPalc8ClearP1 (d : PixelFormat) (s : State) : Answer :=
  whenAccepting s fun s => palc8ClearP1 (rowArgs s d .palette1) s

/-- `PALC8.Clear.P24` (R228). -/
def palc8ClearP24 (a : BlitArgs) (s : State) : Answer :=
  palc8Rejected a s

/-- `PALC8.Clear.P24` run by itself (R228; entry 2). -/
def execPalc8ClearP24 (d : PixelFormat) (f : PixelFormat) (s : State) : Answer :=
  whenAccepting s fun s => palc8ClearP24 (rowArgs s d f) s

/-- `PALC8.Set.P1` (R224). -/
def palc8SetP1 (lib : ColorLib) (a : BlitArgs) (s : State) : Answer :=
  palc8 (combineBlend lib id) a s

/-- `PALC8.Set.P1` run by itself (R224; entry 2). -/
def execPalc8SetP1 (d : PixelFormat) (s : State) : Answer :=
  whenAccepting s fun s => palc8SetP1 engineLib (rowArgs s d .palette1) s

/-- `PALC8.Set.P24` (R224). -/
def palc8SetP24 (lib : ColorLib) (a : BlitArgs) (s : State) : Answer :=
  palc8 (combineBlend lib id) a s

/-- `PALC8.Set.P24` run by itself (R224; entry 2). -/
def execPalc8SetP24 (d : PixelFormat) (f : PixelFormat) (s : State) : Answer :=
  whenAccepting s fun s => palc8SetP24 engineLib (rowArgs s d f) s

/-- `PALC8.Tint.P1` (R225). -/
def palc8TintP1 (lib : ColorLib) (a : BlitArgs) (s : State) : Answer :=
  palc8 (combineBlend lib (tintPaint a.tint)) a s

/-- `PALC8.Tint.P1` run by itself (R225; entry 2). -/
def execPalc8TintP1 (d : PixelFormat) (s : State) : Answer :=
  whenAccepting s fun s => palc8TintP1 engineLib (rowArgs s d .palette1) s

/-- `PALC8.Tint.P24` (R225). -/
def palc8TintP24 (lib : ColorLib) (a : BlitArgs) (s : State) : Answer :=
  palc8 (combineBlend lib (tintPaint a.tint)) a s

/-- `PALC8.Tint.P24` run by itself (R225; entry 2). -/
def execPalc8TintP24 (d : PixelFormat) (f : PixelFormat) (s : State) : Answer :=
  whenAccepting s fun s => palc8TintP24 engineLib (rowArgs s d f) s

/-- `PALC8.TintLuminance.P1` (R227). -/
def palc8TintLuminanceP1 (lib : ColorLib) (a : BlitArgs) (s : State) : Answer :=
  palc8 (combineBlend lib (luminancePaint lib a.tint)) a s

/-- `PALC8.TintLuminance.P1` run by itself (R227; entry 2). -/
def execPalc8TintLuminanceP1 (d : PixelFormat) (s : State) : Answer :=
  whenAccepting s fun s => palc8TintLuminanceP1 engineLib (rowArgs s d .palette1) s

/-- `PALC8.TintLuminance.P24` (R227). -/
def palc8TintLuminanceP24 (lib : ColorLib) (a : BlitArgs) (s : State) : Answer :=
  palc8 (combineBlend lib (luminancePaint lib a.tint)) a s

/-- `PALC8.TintLuminance.P24` run by itself (R227; entry 2). -/
def execPalc8TintLuminanceP24 (d : PixelFormat) (f : PixelFormat) (s : State) : Answer :=
  whenAccepting s fun s => palc8TintLuminanceP24 engineLib (rowArgs s d f) s

end Sys2Proof.Machine
end

