-- ==== Sys2Proof/Machine/Color8Color8.lean ====
section
/-! DEFINITION. Routine C8C8, Color8 or Color8Circular to Color8 or Color8Circular (45_color8_to_color8 R240 to R252). -/

namespace Sys2Proof.Machine

/-- One visited pixel that is not skipped: the source byte, combined (45_color8_to_color8 R242). -/
def c8c8Pixel (combine : Combine) (e : PixEnv) (a : BlitArgs) (p : Px) (m : Memory) : Except Stop Memory := do
  let c ← readByte e m (p.srcPtr + p.sx)
  combine e c (dstAddr a.dst p) m

/-- Routine C8C8: no entry check, every operator has an action (45 R240, R241). -/
def c8c8 (combine : Combine) (a : BlitArgs) (s : State) : Answer :=
  runBlit (c8c8Pixel combine (pixEnv s) a) a s

/-! ### The rows of the opcode table -/

/-- `C8C8.Assign` (R244). -/
def c8c8Assign (a : BlitArgs) (s : State) : Answer :=
  c8c8 combineCopy a s

/-- `C8C8.Assign` run by itself (R244; entry 2). -/
def execC8c8Assign (d : PixelFormat) (f : PixelFormat) (s : State) : Answer :=
  whenAccepting s fun s => c8c8Assign (rowArgs s d f) s

/-- `C8C8.AssignInverted` (R245). -/
def c8c8AssignInverted (a : BlitArgs) (s : State) : Answer :=
  c8c8 combineCopy a s

/-- `C8C8.AssignInverted` run by itself (R245; entry 2). -/
def execC8c8AssignInverted (d : PixelFormat) (f : PixelFormat) (s : State) : Answer :=
  whenAccepting s fun s => c8c8AssignInverted (rowArgs s d f) s

/-- `C8C8.Or` (R246). -/
def c8c8Or (a : BlitArgs) (s : State) : Answer :=
  c8c8 combineCopy a s

/-- `C8C8.Or` run by itself (R246; entry 2). -/
def execC8c8Or (d : PixelFormat) (f : PixelFormat) (s : State) : Answer :=
  whenAccepting s fun s => c8c8Or (rowArgs s d f) s

/-- `C8C8.And` (R247). -/
def c8c8And (a : BlitArgs) (s : State) : Answer :=
  c8c8 combineCopy a s

/-- `C8C8.And` run by itself (R247; entry 2). -/
def execC8c8And (d : PixelFormat) (f : PixelFormat) (s : State) : Answer :=
  whenAccepting s fun s => c8c8And (rowArgs s d f) s

/-- `C8C8.Clear` (R248). -/
def c8c8Clear (a : BlitArgs) (s : State) : Answer :=
  c8c8 combineCopy a s

/-- `C8C8.Clear` run by itself (R248; entry 2). -/
def execC8c8Clear (d : PixelFormat) (f : PixelFormat) (s : State) : Answer :=
  whenAccepting s fun s => c8c8Clear (rowArgs s d f) s

/-- `C8C8.Set` (R249). -/
def c8c8Set (lib : ColorLib) (a : BlitArgs) (s : State) : Answer :=
  c8c8 (combineBlend lib id) a s

/-- `C8C8.Set` run by itself (R249; entry 2). -/
def execC8c8Set (d : PixelFormat) (f : PixelFormat) (s : State) : Answer :=
  whenAccepting s fun s => c8c8Set engineLib (rowArgs s d f) s

/-- `C8C8.Tint` (R250). -/
def c8c8Tint (lib : ColorLib) (a : BlitArgs) (s : State) : Answer :=
  c8c8 (combineBlend lib (tintPaint a.tint)) a s

/-- `C8C8.Tint` run by itself (R250; entry 2). -/
def execC8c8Tint (d : PixelFormat) (f : PixelFormat) (s : State) : Answer :=
  whenAccepting s fun s => c8c8Tint engineLib (rowArgs s d f) s

/-- `C8C8.TintLuminance` (R251). -/
def c8c8TintLuminance (lib : ColorLib) (a : BlitArgs) (s : State) : Answer :=
  c8c8 (combineBlend lib (luminancePaint lib a.tint)) a s

/-- `C8C8.TintLuminance` run by itself (R251; entry 2). -/
def execC8c8TintLuminance (d : PixelFormat) (f : PixelFormat) (s : State) : Answer :=
  whenAccepting s fun s => c8c8TintLuminance engineLib (rowArgs s d f) s

end Sys2Proof.Machine
end

