-- ==== Sys2Proof/Machine/Mono1Color8.lean ====
section
/-! DEFINITION. Routine M1C8, Mono1 to Color8 or Color8Circular (46_mono1_to_color8 R260 to R273). -/

namespace Sys2Proof.Machine

/-- `expand8`: the colour a source bit writes, none where the destination byte is not accessed
(46_mono1_to_color8 R262). -/
abbrev Expand := Bool → Option Color

/-- One visited pixel: the source bit, expanded (46 R261, R262). -/
def m1c8Pixel (expand : Expand) (e : PixEnv) (a : BlitArgs) (p : Px) (m : Memory) : Except Stop Memory := do
  let bit ← monoBit e m a.src p.sx p.sy
  match expand bit with
  | some c => writeByte e m (dstAddr a.dst p) c
  | none => return m

/-- Routine M1C8 (46 R260, R261). -/
def m1c8 (expand : Expand) (a : BlitArgs) (s : State) : Answer :=
  withAlignment (isAligned a.src) s fun s => runBlit (m1c8Pixel expand (pixEnv s) a) a s

/-! ### The rows of the opcode table -/

/-- `M1C8.Assign` (R263, R262). -/
def m1c8Assign (a : BlitArgs) (s : State) : Answer :=
  m1c8 (fun bit => if bit then some white else some black) a s

/-- `M1C8.Assign` run by itself (R263; entry 2). -/
def execM1c8Assign (d : PixelFormat) (s : State) : Answer :=
  whenAccepting s fun s => m1c8Assign (rowArgs s d .mono1) s

/-- `M1C8.AssignInverted` (R264, R262). -/
def m1c8AssignInverted (a : BlitArgs) (s : State) : Answer :=
  m1c8 (fun bit => if bit then some black else some white) a s

/-- `M1C8.AssignInverted` run by itself (R264; entry 2). -/
def execM1c8AssignInverted (d : PixelFormat) (s : State) : Answer :=
  whenAccepting s fun s => m1c8AssignInverted (rowArgs s d .mono1) s

/-- `M1C8.Or` (R265, R262). -/
def m1c8Or (a : BlitArgs) (s : State) : Answer :=
  m1c8 (fun bit => if bit then some white else none) a s

/-- `M1C8.Or` run by itself (R265; entry 2). -/
def execM1c8Or (d : PixelFormat) (s : State) : Answer :=
  whenAccepting s fun s => m1c8Or (rowArgs s d .mono1) s

/-- `M1C8.And` (R266, R262). -/
def m1c8And (a : BlitArgs) (s : State) : Answer :=
  m1c8 (fun bit => if bit then none else some black) a s

/-- `M1C8.And` run by itself (R266; entry 2). -/
def execM1c8And (d : PixelFormat) (s : State) : Answer :=
  whenAccepting s fun s => m1c8And (rowArgs s d .mono1) s

/-- `M1C8.Clear` (R267, R262). -/
def m1c8Clear (a : BlitArgs) (s : State) : Answer :=
  m1c8 (fun bit => if bit then some black else none) a s

/-- `M1C8.Clear` run by itself (R267; entry 2). -/
def execM1c8Clear (d : PixelFormat) (s : State) : Answer :=
  whenAccepting s fun s => m1c8Clear (rowArgs s d .mono1) s

/-- `M1C8.Set` (R268, R262). -/
def m1c8Set (a : BlitArgs) (s : State) : Answer :=
  m1c8 (fun bit => if bit then none else some white) a s

/-- `M1C8.Set` run by itself (R268; entry 2). -/
def execM1c8Set (d : PixelFormat) (s : State) : Answer :=
  whenAccepting s fun s => m1c8Set (rowArgs s d .mono1) s

/-- `M1C8.Tint` (R269, R262). -/
def m1c8Tint (a : BlitArgs) (s : State) : Answer :=
  m1c8 (fun bit => if bit then none else some a.tint) a s

/-- `M1C8.Tint` run by itself (R269; entry 2). -/
def execM1c8Tint (d : PixelFormat) (s : State) : Answer :=
  whenAccepting s fun s => m1c8Tint (rowArgs s d .mono1) s

/-- `M1C8.TintLuminance` (R270, R262). -/
def m1c8TintLuminance (a : BlitArgs) (s : State) : Answer :=
  m1c8 (fun bit => if bit then none else some a.tint) a s

/-- `M1C8.TintLuminance` run by itself (R270; entry 2). -/
def execM1c8TintLuminance (d : PixelFormat) (s : State) : Answer :=
  whenAccepting s fun s => m1c8TintLuminance (rowArgs s d .mono1) s

end Sys2Proof.Machine
end

