-- ==== Sys2Proof/Machine/Mono1Mono1.lean ====
section
/-! DEFINITION. Routine M1M1, Mono1 to Mono1, with its word procedure (42_mono1_to_mono1 R180 to R194). -/

namespace Sys2Proof.Machine

/-- A masked word update `apply(op, d, s, m)` (42_mono1_to_mono1 R182). -/
abbrev WordForm := Word → Word → Word → Word

/-- The rotation that lines source column `sx` up with destination column `dx` (42 R190). -/
def alignRotation (dx sx : Int) : Nat := ((32 + dx % 32 - sx % 32) % 32).toNat

/-- One visited pixel: the source word rotated into place, and the masked update of the destination word at the
pixel's bit (42 R181, R182). -/
def m1m1Pixel (form : WordForm) (e : PixEnv) (a : BlitArgs) (p : Px) (m : Memory) : Except Stop Memory := do
  let w ← readWord e m (monoWordAddr a.src (p.sx / 32) p.sy)
  let d ← readWord e m (dstAddr a.dst p)
  writeWord e m (dstAddr a.dst p)
    (form d (rotl32 w (alignRotation p.dx p.sx)) (maskBits 1 (p.dx % 32).toNat))

/-- Routine M1M1 (42 R180, R181). -/
def m1m1 (form : WordForm) (a : BlitArgs) (s : State) : Answer :=
  withAlignment (isAligned a.src && isAligned a.dst) s fun s =>
    runBlit (m1m1Pixel form (pixEnv s) a) a s

/-! ### The word procedure (42 R190 to R192)

The source's own loop over units of up to 32 pixels. `exec` runs the pixel statement R181, which R181 calls the
normative one; a statement says that the two agree (entry 11). -/

/-- The size of a unit: the minimum of the four bounds (42 R190, 90 C5). -/
def unitSize (a : BlitArgs) (dstShift srcCol remaining : Int) : Int :=
  min (min (32 - dstShift) remaining) (min (32 - srcCol % 32) (a.src.bounds.x + a.src.bounds.w - srcCol))

/-- The units of one row, from destination word `k` at bit `dstShift` and source column `srcCol`, with `remaining`
pixels to go; the first argument bounds the number of units, each being one pixel or more (42 R190). -/
def m1m1Units (form : WordForm) (e : PixEnv) (a : BlitArgs) (dy : Int) :
    Nat → Int → Int → Int → Int → Memory → Except Stop Memory
  | 0, _, _, _, _, m => .ok m
  | fuel + 1, k, dstShift, srcCol, remaining, m =>
    if remaining ≤ 0 then .ok m
    else do
      let n := unitSize a dstShift srcCol remaining
      let w ← readWord e m (monoWordAddr a.src (srcCol / 32) (srcY a dy))
      let d ← readWord e m (monoWordAddr a.dst k dy)
      let m ← writeWord e m (monoWordAddr a.dst k dy)
        (form d (rotl32 w (alignRotation dstShift srcCol)) (maskBits n.toNat dstShift.toNat))
      let dstShift' := (dstShift + n) % 32
      let k' := if dstShift' = 0 then k + 1 else k
      let srcCol' := if srcCol + n = a.src.bounds.x + a.src.bounds.w then a.src.bounds.x else srcCol + n
      m1m1Units form e a dy fuel k' dstShift' srcCol' (remaining - n) m

/-- The rows of the word procedure (42 R190). -/
def m1m1UnitRows (form : WordForm) (e : PixEnv) (a : BlitArgs) : List Int → Memory → Except Stop Memory
  | [], m => .ok m
  | dy :: rest, m => do
    let m ← m1m1Units form e a dy a.rect.w.toNat (a.rect.x / 32) (a.rect.x % 32) (a.src.bounds.x + a.off.x)
      a.rect.w m
    m1m1UnitRows form e a rest m

/-- The word procedure over the whole rectangle (42 R190). -/
def m1m1Words (form : WordForm) (e : PixEnv) (a : BlitArgs) (m : Memory) : Except Stop Memory :=
  m1m1UnitRows form e a (intRange a.rect.y (maxY a.rect)) m

/-! ### The rows of the opcode table -/

/-- The word form of `M1M1.Assign` (R183, R182). -/
def m1m1AssignForm : WordForm := fun d s m => (d &&& ~~~m) ||| (s &&& m)

/-- `M1M1.Assign` (R183). -/
def m1m1Assign (a : BlitArgs) (s : State) : Answer := m1m1 m1m1AssignForm a s

/-- `M1M1.Assign` run by itself (R183; entry 2). -/
def execM1m1Assign (s : State) : Answer :=
  whenAccepting s fun s => m1m1Assign (rowArgs s .mono1 .mono1) s

/-- The word form of `M1M1.AssignInverted` (R184, R182). -/
def m1m1AssignInvertedForm : WordForm := fun d s m => d ^^^ (m &&& (~~~s ^^^ d))

/-- `M1M1.AssignInverted` (R184). -/
def m1m1AssignInverted (a : BlitArgs) (s : State) : Answer := m1m1 m1m1AssignInvertedForm a s

/-- `M1M1.AssignInverted` run by itself (R184; entry 2). -/
def execM1m1AssignInverted (s : State) : Answer :=
  whenAccepting s fun s => m1m1AssignInverted (rowArgs s .mono1 .mono1) s

/-- The word form of `M1M1.Or` (R185, R182). -/
def m1m1OrForm : WordForm := fun d s m => d ||| (s &&& m)

/-- `M1M1.Or` (R185). -/
def m1m1Or (a : BlitArgs) (s : State) : Answer := m1m1 m1m1OrForm a s

/-- `M1M1.Or` run by itself (R185; entry 2). -/
def execM1m1Or (s : State) : Answer :=
  whenAccepting s fun s => m1m1Or (rowArgs s .mono1 .mono1) s

/-- The word form of `M1M1.And` (R186, R182). -/
def m1m1AndForm : WordForm := fun d s m => d &&& (~~~m ||| s)

/-- `M1M1.And` (R186). -/
def m1m1And (a : BlitArgs) (s : State) : Answer := m1m1 m1m1AndForm a s

/-- `M1M1.And` run by itself (R186; entry 2). -/
def execM1m1And (s : State) : Answer :=
  whenAccepting s fun s => m1m1And (rowArgs s .mono1 .mono1) s

/-- The word form of `M1M1.Clear` (R187, R182). -/
def m1m1ClearForm : WordForm := fun d s m => d &&& ~~~(s &&& m)

/-- `M1M1.Clear` (R187). -/
def m1m1Clear (a : BlitArgs) (s : State) : Answer := m1m1 m1m1ClearForm a s

/-- `M1M1.Clear` run by itself (R187; entry 2). -/
def execM1m1Clear (s : State) : Answer :=
  whenAccepting s fun s => m1m1Clear (rowArgs s .mono1 .mono1) s

/-- The word form of `M1M1.Set` (R188, R182). -/
def m1m1SetForm : WordForm := fun d s m => d ||| (~~~s &&& m)

/-- `M1M1.Set` (R188). -/
def m1m1Set (a : BlitArgs) (s : State) : Answer := m1m1 m1m1SetForm a s

/-- `M1M1.Set` run by itself (R188; entry 2). -/
def execM1m1Set (s : State) : Answer :=
  whenAccepting s fun s => m1m1Set (rowArgs s .mono1 .mono1) s

/-- `M1M1.Tint`: no form exists and none is given (R189, entry 12). -/
def m1m1Tint : Answer := .refused .noMono1TintForm

/-- `M1M1.Tint` run by itself: refused on every path (R189; entry 12). -/
def execM1m1Tint (_ : State) : Answer := m1m1Tint

/-- `M1M1.TintLuminance`: no form exists and none is given (R189, entry 12). -/
def m1m1TintLuminance : Answer := .refused .noMono1TintForm

/-- `M1M1.TintLuminance` run by itself: refused on every path (R189; entry 12). -/
def execM1m1TintLuminance (_ : State) : Answer := m1m1TintLuminance

end Sys2Proof.Machine
end

