-- ==== Sys2Proof/Machine/PaletteMono1.lean ====
section
/-! DEFINITION. Routine PALM1, Palette1 or Palette2 to Mono1 (43_palette_to_mono1 R200 to R212). -/

namespace Sys2Proof.Machine

/-- One entry of the per-call table (43_palette_to_mono1 R202). -/
structure DitherEntry where
  transparent : Bool
  even : Word
  odd : Word
deriving DecidableEq, Repr, Inhabited

/-- `dither(g)`: the patterns for even and odd destination rows (43 R203). -/
def dither (lib : ColorLib) (g : Color) : Word × Word :=
  if lib.equal g white then (0xFFFFFFFF, 0xFFFFFFFF)
  else if lib.equal g black then (0x00000000, 0x00000000)
  else (0xAAAAAAAA, 0x55555555)

/-- Steps (2) and (3) of the table for a colour that step (1) gives (43 R202). -/
def ditherEntry (lib : ColorLib) (c : Color) : DitherEntry :=
  let g := lib.grayscale c
  ⟨isTransparent g, (dither lib g).1, (dither lib g).2⟩

/-- The per-call table for the indices from `i` on, `n` of them, `recolor` being step (1) (43 R202). -/
def ditherTable (lib : ColorLib) (recolor : Color → Color) (e : PixEnv) (m : Memory) (b : Bitmap) (i : Nat) :
    Nat → Except Stop (List DitherEntry)
  | 0 => .ok []
  | n + 1 => do
    let c ← palColor e m b i
    let rest ← ditherTable lib recolor e m b (i + 1) n
    return ditherEntry lib (recolor c) :: rest

/-- The pattern of an entry for a destination row (43 R203, R204). -/
def ditherPattern (t : DitherEntry) (dy : Int) : Word := if dy % 2 = 0 then t.even else t.odd

/-- One visited pixel: the masked assign of one bit of the destination word (43 R204, R212). -/
def palm1Pixel (table : List DitherEntry) (e : PixEnv) (a : BlitArgs) (p : Px) (m : Memory) :
    Except Stop Memory := do
  let i ← palIndex e m a.src p.sx p.sy
  let t := table.getD i default
  let mask := if t.transparent then 0 else maskBits 1 (p.dx % 32).toNat
  let d ← readWord e m (dstAddr a.dst p)
  writeWord e m (dstAddr a.dst p) ((d &&& ~~~mask) ||| (ditherPattern t p.dy &&& mask))

/-- Routine PALM1 with a permitted operator, `recolor` being step (1) of its table (43 R200, R202, R204). -/
def palm1 (lib : ColorLib) (recolor : Color → Color) (a : BlitArgs) (s : State) : Answer :=
  withPalette a s fun s =>
    withAlignment (isAligned a.dst) s fun s =>
      match ditherTable lib recolor (pixEnv s) s.mem a.src 0 (2 ^ bpp a.src.format) with
      | .error x => stopAnswer x
      | .ok table => runBlit (palm1Pixel table (pixEnv s) a) a s

/-- What PALM1 has read when it meets an operator that is not permitted: the source byte (43 R201, R210). -/
def palm1Look (e : PixEnv) (a : BlitArgs) (p : Px) (m : Memory) : Except Stop Unit := do
  let _ ← palIndex e m a.src p.sx p.sy
  return ()

/-- Routine PALM1 with an operator that is not permitted (43 R201, R210). -/
def palm1Rejected (lib : ColorLib) (a : BlitArgs) (s : State) : Answer :=
  withPalette a s fun s =>
    withAlignment (isAligned a.dst) s fun s =>
      match ditherTable lib id (pixEnv s) s.mem a.src 0 (2 ^ bpp a.src.format) with
      | .error x => stopAnswer x
      | .ok _ => rejectBlit (palm1Look (pixEnv s) a) a s

/-! ### The rows of the opcode table -/

/-- `PALM1.Assign.P1` (R205). -/
def palm1AssignP1 (lib : ColorLib) (a : BlitArgs) (s : State) : Answer :=
  palm1 lib (fun c => withAlpha c 3) a s

/-- `PALM1.Assign.P1` run by itself (R205; entry 2). -/
def execPalm1AssignP1 (s : State) : Answer :=
  whenAccepting s fun s => palm1AssignP1 engineLib (rowArgs s .mono1 .palette1) s

/-- `PALM1.Assign.P2` (R205). -/
def palm1AssignP2 (lib : ColorLib) (a : BlitArgs) (s : State) : Answer :=
  palm1 lib (fun c => withAlpha c 3) a s

/-- `PALM1.Assign.P2` run by itself (R205; entry 2). -/
def execPalm1AssignP2 (s : State) : Answer :=
  whenAccepting s fun s => palm1AssignP2 engineLib (rowArgs s .mono1 .palette2) s

/-- `PALM1.AssignInverted.P1` (R210). -/
def palm1AssignInvertedP1 (lib : ColorLib) (a : BlitArgs) (s : State) : Answer :=
  palm1Rejected lib a s

/-- `PALM1.AssignInverted.P1` run by itself (R210; entry 2). -/
def execPalm1AssignInvertedP1 (s : State) : Answer :=
  whenAccepting s fun s => palm1AssignInvertedP1 engineLib (rowArgs s .mono1 .palette1) s

/-- `PALM1.AssignInverted.P2` (R210). -/
def palm1AssignInvertedP2 (lib : ColorLib) (a : BlitArgs) (s : State) : Answer :=
  palm1Rejected lib a s

/-- `PALM1.AssignInverted.P2` run by itself (R210; entry 2). -/
def execPalm1AssignInvertedP2 (s : State) : Answer :=
  whenAccepting s fun s => palm1AssignInvertedP2 engineLib (rowArgs s .mono1 .palette2) s

/-- `PALM1.Or.P1` (R210). -/
def palm1OrP1 (lib : ColorLib) (a : BlitArgs) (s : State) : Answer :=
  palm1Rejected lib a s

/-- `PALM1.Or.P1` run by itself (R210; entry 2). -/
def execPalm1OrP1 (s : State) : Answer :=
  whenAccepting s fun s => palm1OrP1 engineLib (rowArgs s .mono1 .palette1) s

/-- `PALM1.Or.P2` (R210). -/
def palm1OrP2 (lib : ColorLib) (a : BlitArgs) (s : State) : Answer :=
  palm1Rejected lib a s

/-- `PALM1.Or.P2` run by itself (R210; entry 2). -/
def execPalm1OrP2 (s : State) : Answer :=
  whenAccepting s fun s => palm1OrP2 engineLib (rowArgs s .mono1 .palette2) s

/-- `PALM1.And.P1` (R210). -/
def palm1AndP1 (lib : ColorLib) (a : BlitArgs) (s : State) : Answer :=
  palm1Rejected lib a s

/-- `PALM1.And.P1` run by itself (R210; entry 2). -/
def execPalm1AndP1 (s : State) : Answer :=
  whenAccepting s fun s => palm1AndP1 engineLib (rowArgs s .mono1 .palette1) s

/-- `PALM1.And.P2` (R210). -/
def palm1AndP2 (lib : ColorLib) (a : BlitArgs) (s : State) : Answer :=
  palm1Rejected lib a s

/-- `PALM1.And.P2` run by itself (R210; entry 2). -/
def execPalm1AndP2 (s : State) : Answer :=
  whenAccepting s fun s => palm1AndP2 engineLib (rowArgs s .mono1 .palette2) s

/-- `PALM1.Clear.P1` (R210). -/
def palm1ClearP1 (lib : ColorLib) (a : BlitArgs) (s : State) : Answer :=
  palm1Rejected lib a s

/-- `PALM1.Clear.P1` run by itself (R210; entry 2). -/
def execPalm1ClearP1 (s : State) : Answer :=
  whenAccepting s fun s => palm1ClearP1 engineLib (rowArgs s .mono1 .palette1) s

/-- `PALM1.Clear.P2` (R210). -/
def palm1ClearP2 (lib : ColorLib) (a : BlitArgs) (s : State) : Answer :=
  palm1Rejected lib a s

/-- `PALM1.Clear.P2` run by itself (R210; entry 2). -/
def execPalm1ClearP2 (s : State) : Answer :=
  whenAccepting s fun s => palm1ClearP2 engineLib (rowArgs s .mono1 .palette2) s

/-- `PALM1.Set.P1` (R206). -/
def palm1SetP1 (lib : ColorLib) (a : BlitArgs) (s : State) : Answer :=
  palm1 lib id a s

/-- `PALM1.Set.P1` run by itself (R206; entry 2). -/
def execPalm1SetP1 (s : State) : Answer :=
  whenAccepting s fun s => palm1SetP1 engineLib (rowArgs s .mono1 .palette1) s

/-- `PALM1.Set.P2` (R206). -/
def palm1SetP2 (lib : ColorLib) (a : BlitArgs) (s : State) : Answer :=
  palm1 lib id a s

/-- `PALM1.Set.P2` run by itself (R206; entry 2). -/
def execPalm1SetP2 (s : State) : Answer :=
  whenAccepting s fun s => palm1SetP2 engineLib (rowArgs s .mono1 .palette2) s

/-- `PALM1.Tint.P1` (R207). -/
def palm1TintP1 (lib : ColorLib) (a : BlitArgs) (s : State) : Answer :=
  palm1 lib (fun c => withAlpha a.tint (alpha c)) a s

/-- `PALM1.Tint.P1` run by itself (R207; entry 2). -/
def execPalm1TintP1 (s : State) : Answer :=
  whenAccepting s fun s => palm1TintP1 engineLib (rowArgs s .mono1 .palette1) s

/-- `PALM1.Tint.P2` (R207). -/
def palm1TintP2 (lib : ColorLib) (a : BlitArgs) (s : State) : Answer :=
  palm1 lib (fun c => withAlpha a.tint (alpha c)) a s

/-- `PALM1.Tint.P2` run by itself (R207; entry 2). -/
def execPalm1TintP2 (s : State) : Answer :=
  whenAccepting s fun s => palm1TintP2 engineLib (rowArgs s .mono1 .palette2) s

/-- `PALM1.TintLuminance.P1` (R208). -/
def palm1TintLuminanceP1 (lib : ColorLib) (a : BlitArgs) (s : State) : Answer :=
  palm1 lib (fun c => withAlpha (lib.tintViaLuminance c a.tint) (alpha c)) a s

/-- `PALM1.TintLuminance.P1` run by itself (R208; entry 2). -/
def execPalm1TintLuminanceP1 (s : State) : Answer :=
  whenAccepting s fun s => palm1TintLuminanceP1 engineLib (rowArgs s .mono1 .palette1) s

/-- `PALM1.TintLuminance.P2` (R208). -/
def palm1TintLuminanceP2 (lib : ColorLib) (a : BlitArgs) (s : State) : Answer :=
  palm1 lib (fun c => withAlpha (lib.tintViaLuminance c a.tint) (alpha c)) a s

/-- `PALM1.TintLuminance.P2` run by itself (R208; entry 2). -/
def execPalm1TintLuminanceP2 (s : State) : Answer :=
  whenAccepting s fun s => palm1TintLuminanceP2 engineLib (rowArgs s .mono1 .palette2) s

end Sys2Proof.Machine
end

