-- ==== Sys2Proof/Machine/Unsupported.lean ====
section
/-! DEFINITION. The pairs of formats without a routine (41_dispatch R166, 60_exceptions R312). -/

namespace Sys2Proof.Machine

/-- The dispatch finds no routine for the pair: the error, with nothing read or written (41_dispatch R166,
60_exceptions R312). -/
def unsupportedPair (s : State) : Answer := .next (raiseError .unsupportedFormatPair s)

/-- `UNSUPPORTED_PAIR.D_PALETTE1` (R166, R312). -/
def execUnsupportedDPalette1 (s : State) : Answer := whenAccepting s unsupportedPair

/-- `UNSUPPORTED_PAIR.D_PALETTE2_4` (R166, R312). -/
def execUnsupportedDPalette24 (s : State) : Answer := whenAccepting s unsupportedPair

/-- `UNSUPPORTED_PAIR.D_RESERVED` (R166, R312). -/
def execUnsupportedDReserved (s : State) : Answer := whenAccepting s unsupportedPair

/-- `UNSUPPORTED_PAIR.MONO1_FROM_P4` (R166, R312). -/
def execUnsupportedMono1FromP4 (s : State) : Answer := whenAccepting s unsupportedPair

/-- `UNSUPPORTED_PAIR.MONO1_FROM_C8_OR_RESERVED` (R166, R312). -/
def execUnsupportedMono1FromC8OrReserved (s : State) : Answer := whenAccepting s unsupportedPair

/-- `UNSUPPORTED_PAIR.C8_FROM_RESERVED` (R166, R312). -/
def execUnsupportedC8FromReserved (s : State) : Answer := whenAccepting s unsupportedPair

end Sys2Proof.Machine
end

