-- ==== Sys2Proof/Machine/Compositor.lean ====
section
/-! DEFINITION. The compositor: no-op path, tint normalisation, dispatch, and the commands BLIT, BLIT_AT and IS_NOOP
(41_dispatch R160 to R171). -/

namespace Sys2Proof.Machine

/-- Tint normalisation for a 1-bit destination; none where the BLIT ends with `OK` (41_dispatch R164, R165). -/
def normalise (lib : ColorLib) (d : PixelFormat) (op : CompOp) (tint : Color) : Option (CompOp × Color) :=
  if d = .mono1 ∧ (op = .tint ∨ op = .tintLuminance) then
    let t := lib.getBw tint
    if lib.equal t black then some (.and, t)
    else if lib.equal t white then some (.set, t)
    else none
  else some (op, tint)

/-- The routines a dispatch can find, palette routines split as the opcode table splits their rows (41_dispatch R166,
30_encoding R105). -/
inductive Routine where
  | m1m1 | palm1P1 | palm1P2 | palc8P1 | palc8P24 | c8c8 | m1c8
deriving DecidableEq, Repr

/-- The dispatch table, none for an unsupported pair (41_dispatch R166). -/
def dispatchPair (f d : PixelFormat) : Option Routine :=
  match d with
  | .mono1 =>
    match f with
    | .mono1 => some .m1m1
    | .palette1 => some .palm1P1
    | .palette2 => some .palm1P2
    | .palette4 | .color8 | .color8Circular | .reserved6 | .reserved7 => none
  | .color8 | .color8Circular =>
    match f with
    | .mono1 => some .m1c8
    | .palette1 => some .palc8P1
    | .palette2 | .palette4 => some .palc8P24
    | .color8 | .color8Circular => some .c8c8
    | .reserved6 | .reserved7 => none
  | .palette1 | .palette2 | .palette4 | .reserved6 | .reserved7 => none

/-- The row of routine M1M1 that an operator selects (R183 to R189). -/
def runM1m1 (a : BlitArgs) (s : State) : CompOp → Answer
  | .assign => m1m1Assign a s
  | .assignInverted => m1m1AssignInverted a s
  | .or => m1m1Or a s
  | .and => m1m1And a s
  | .clear => m1m1Clear a s
  | .set => m1m1Set a s
  | .tint => m1m1Tint
  | .tintLuminance => m1m1TintLuminance

/-- The row of routine PALM1 (source P1) that an operator selects (R205 to R210). -/
def runPalm1P1 (lib : ColorLib) (a : BlitArgs) (s : State) : CompOp → Answer
  | .assign => palm1AssignP1 lib a s
  | .assignInverted => palm1AssignInvertedP1 lib a s
  | .or => palm1OrP1 lib a s
  | .and => palm1AndP1 lib a s
  | .clear => palm1ClearP1 lib a s
  | .set => palm1SetP1 lib a s
  | .tint => palm1TintP1 lib a s
  | .tintLuminance => palm1TintLuminanceP1 lib a s

/-- The row of routine PALM1 (source P2) that an operator selects (R205 to R210). -/
def runPalm1P2 (lib : ColorLib) (a : BlitArgs) (s : State) : CompOp → Answer
  | .assign => palm1AssignP2 lib a s
  | .assignInverted => palm1AssignInvertedP2 lib a s
  | .or => palm1OrP2 lib a s
  | .and => palm1AndP2 lib a s
  | .clear => palm1ClearP2 lib a s
  | .set => palm1SetP2 lib a s
  | .tint => palm1TintP2 lib a s
  | .tintLuminance => palm1TintLuminanceP2 lib a s

/-- The row of routine PALC8 (source P1) that an operator selects (R223 to R228). -/
def runPalc8P1 (lib : ColorLib) (a : BlitArgs) (s : State) : CompOp → Answer
  | .assign => palc8AssignP1 a s
  | .assignInverted => palc8AssignInvertedP1 a s
  | .or => palc8OrP1 a s
  | .and => palc8AndP1 a s
  | .clear => palc8ClearP1 a s
  | .set => palc8SetP1 lib a s
  | .tint => palc8TintP1 lib a s
  | .tintLuminance => palc8TintLuminanceP1 lib a s

/-- The row of routine PALC8 (source P24) that an operator selects (R223 to R228). -/
def runPalc8P24 (lib : ColorLib) (a : BlitArgs) (s : State) : CompOp → Answer
  | .assign => palc8AssignP24 a s
  | .assignInverted => palc8AssignInvertedP24 a s
  | .or => palc8OrP24 a s
  | .and => palc8AndP24 a s
  | .clear => palc8ClearP24 a s
  | .set => palc8SetP24 lib a s
  | .tint => palc8TintP24 lib a s
  | .tintLuminance => palc8TintLuminanceP24 lib a s

/-- The row of routine C8C8 that an operator selects (R244 to R251). -/
def runC8c8 (lib : ColorLib) (a : BlitArgs) (s : State) : CompOp → Answer
  | .assign => c8c8Assign a s
  | .assignInverted => c8c8AssignInverted a s
  | .or => c8c8Or a s
  | .and => c8c8And a s
  | .clear => c8c8Clear a s
  | .set => c8c8Set lib a s
  | .tint => c8c8Tint lib a s
  | .tintLuminance => c8c8TintLuminance lib a s

/-- The row of routine M1C8 that an operator selects (R263 to R270). -/
def runM1c8 (a : BlitArgs) (s : State) : CompOp → Answer
  | .assign => m1c8Assign a s
  | .assignInverted => m1c8AssignInverted a s
  | .or => m1c8Or a s
  | .and => m1c8And a s
  | .clear => m1c8Clear a s
  | .set => m1c8Set a s
  | .tint => m1c8Tint a s
  | .tintLuminance => m1c8TintLuminance a s

/-- The routine of a pair with an operator already normalised: the rows over the dispatch key are the case split
(41_dispatch R160 steps 3 and 4, 30_encoding R105). -/
def runRoutine (lib : ColorLib) (op : CompOp) (a : BlitArgs) (s : State) : Answer :=
  match dispatchPair a.src.format a.dst.format with
  | none => unsupportedPair s
  | some .m1m1 => runM1m1 a s op
  | some .palm1P1 => runPalm1P1 lib a s op
  | some .palm1P2 => runPalm1P2 lib a s op
  | some .palc8P1 => runPalc8P1 lib a s op
  | some .palc8P24 => runPalc8P24 lib a s op
  | some .c8c8 => runC8c8 lib a s op
  | some .m1c8 => runM1c8 a s op

/-- `blit_tiled`: the no-op path, the normalisation, the dispatch, the routine, in this order (41_dispatch R160,
R162). -/
def blitTiled (lib : ColorLib) (op : CompOp) (a : BlitArgs) (s : State) : Answer :=
  if isNoopTint op a.tint then .next (endOk s)
  else
    match normalise lib a.dst.format op a.tint with
    | none => .next (endOk s)
    | some (op', tint') => runRoutine lib op' { a with tint := tint' } s

/-- `BLIT` (41_dispatch R161). -/
def execBlit (s : State) : Answer :=
  whenAccepting s fun s => blitTiled engineLib (opField s.ctrl) (blitArgs s) s

/-- `BLIT_AT` (41_dispatch R168). -/
def execBlitAt (s : State) : Answer :=
  whenAccepting s fun s => blitTiled engineLib (opField s.ctrl) (blitAtArgs s) s

/-- `IS_NOOP` (41_dispatch R169). -/
def execIsNoop (s : State) : Answer :=
  whenAccepting s fun s =>
    .next (endOk { s with res0 := if isNoopTint (opField s.ctrl) (tintField s.ctrl) then 1 else 0 })

end Sys2Proof.Machine
end

