-- ==== Sys2Proof/Machine/Framebuffer.lean ====
section
/-! DEFINITION. The framebuffer commands: clear, mark-dirty, get-row, size, the flush iterator and the dirty reset
(47_framebuffer R280 to R301). -/

namespace Sys2Proof.Machine

/-- The framebuffer's own bounds (47_framebuffer, shorthand). -/
def fbBounds (c : Cfg) : Rect := ⟨0, 0, c.fbCols, c.fbRows⟩

/-- `dirty` (47_framebuffer, shorthand). -/
def dirtyRect (s : State) : Rect := rectOf s.fbDirtyOrg s.fbDirtySize

/-- `dirty <- r` with `IS_DIRTY` set (47_framebuffer R284, R286). -/
def setDirty (s : State) (r : Rect) : State :=
  { s with fbDirtyOrg := packFields r.x r.y, fbDirtySize := packFields r.w r.h, fbFlags := 1 }

/-- `cursor`, zero-extended (10_state R44, 30_encoding R98). -/
def cursorRow (s : State) : Nat := (s.fbCursor.extractLsb' 0 16).toNat

/-- `has_next` (47_framebuffer R292). -/
def hasNextRow (s : State) : Bool := isDirtyFlag s.fbFlags && (cursorRow s : Int) < (dirtyRect s).h

/-- `FB_CLEAR` (47_framebuffer R284). -/
def execFbClear (s : State) : Answer :=
  whenAccepting s fun s =>
    .next (endOk (setDirty (setMem s (fillBytes s.mem s.cfg.fbBase 0xFF (sizeBytes s.cfg))) (fbBounds s.cfg)))

/-- The dirty rectangle after marking `r` (47_framebuffer R286). -/
def markedRect (s : State) (r : Rect) : Rect :=
  clipRect (if isDirtyFlag s.fbFlags then unionRect (dirtyRect s) r else r) (fbBounds s.cfg)

/-- `FB_MARK_DIRTY` (47_framebuffer R286). -/
def execFbMarkDirty (s : State) : Answer :=
  whenAccepting s fun s => .next (endOk (setDirty s (markedRect s (rectOf s.rectOrg s.rectSize))))

/-- The row descriptor `FB_GET_ROW` returns: RES0 and RES1; none where the row index is out of bounds
(47_framebuffer R288). A circular framebuffer's row without a table entry is out of bounds too (40_primitives R142,
entry 13). -/
def fbRow (c : Cfg) (y : Int) : Option (Word × Word) :=
  if y < 0 ∨ (c.fbRows : Int) ≤ y then none
  else if c.fbFormat = .color8Circular then
    (c.rowtab[y.toNat]?).map fun e => (BitVec.ofInt 32 (c.fbBase + e.offset), packFields e.minX e.maxX)
  else some (BitVec.ofInt 32 (c.fbBase + y * bytesPerRow c), packFields 0 ((c.fbCols : Int) - 1))

/-- `FB_GET_ROW` (47_framebuffer R288). -/
def execFbGetRow (s : State) : Answer :=
  whenAccepting s fun s => .next <|
    match fbRow s.cfg (lowField s.arg0) with
    | none => raiseFatal .rowIndexOutOfBounds s
    | some (ptr, window) => endOk { s with res0 := ptr, res1 := window }

/-- `FB_SIZE_BYTES` (47_framebuffer R290). -/
def execFbSizeBytes (s : State) : Answer :=
  whenAccepting s fun s => .next (endOk { s with res0 := BitVec.ofNat 32 (sizeBytes s.cfg) })

/-- `FB_HAS_NEXT_ROW` (47_framebuffer R294). -/
def execFbHasNextRow (s : State) : Answer :=
  whenAccepting s fun s => .next (endOk { s with res0 := if hasNextRow s then 1 else 0 })

/-- The first stored byte of a framebuffer row and how many there are; none for a row a circular framebuffer's table
lacks (47_framebuffer R296). -/
def storedRow (c : Cfg) (y : Int) : Option (Int × Nat) :=
  if c.fbFormat = .color8Circular then
    if y < 0 then none
    else (c.rowtab[y.toNat]?).map fun e => (c.fbBase + e.offset + e.minX, storedColumns e)
  else some (c.fbBase + y * bytesPerRow c, bytesPerRow c)

/-- A row handed to the display driver: the result registers, the cursor and the ROW_OUT event
(47_framebuffer R296, 20_memory R66). -/
def yieldRow (s : State) (y a : Int) (len : Nat) (bytes : List Byte) : State :=
  { s with
    res0 := BitVec.ofInt 32 y
    res1 := BitVec.ofNat 32 (pixAddr a)
    res2 := BitVec.ofNat 32 len
    fbCursor := BitVec.ofNat 32 ((cursorRow s + 1) % 65536)
    rowOut := s.rowOut ++ [⟨y, bytes⟩] }

/-- `FB_NEXT_ROW` (47_framebuffer R296). -/
def execFbNextRow (s : State) : Answer :=
  whenAccepting s fun s =>
    if hasNextRow s then
      let y := (dirtyRect s).y + cursorRow s
      match storedRow s.cfg y with
      | none => .refused .rowOutsideTable
      | some (a, len) =>
        match readBytes (pixEnv s) s.mem a len with
        | .error x => stopAnswer x
        | .ok bytes => .next (endOk (yieldRow s y a len bytes))
    else .next (raiseError .noRow s)

/-- `FB_RESET_DIRTY` (47_framebuffer R297). -/
def execFbResetDirty (s : State) : Answer :=
  whenAccepting s fun s => .next (endOk { s with fbDirtySize := 0, fbFlags := 0, fbCursor := 0 })

end Sys2Proof.Machine
end

