-- ==== Sys2Proof/Machine/Dispatch.lean ====
section
/-! DEFINITION. The meaning of every instruction, one arm for each row of spec/opcode_table.json. -/

namespace Sys2Proof.Machine

/-- One instruction: the ten commands (30_encoding R100) and the rows over the dispatch key (R105). -/
def exec (i : Instr) (s : State) : Host.Outcome State Fault Refusal :=
  match i with
  | .blit => Sys2Proof.Machine.execBlit s
  | .blitAt => Sys2Proof.Machine.execBlitAt s
  | .isNoop => Sys2Proof.Machine.execIsNoop s
  | .fbClear => Sys2Proof.Machine.execFbClear s
  | .fbMarkDirty => Sys2Proof.Machine.execFbMarkDirty s
  | .fbGetRow => Sys2Proof.Machine.execFbGetRow s
  | .fbSizeBytes => Sys2Proof.Machine.execFbSizeBytes s
  | .fbHasNextRow => Sys2Proof.Machine.execFbHasNextRow s
  | .fbNextRow => Sys2Proof.Machine.execFbNextRow s
  | .fbResetDirty => Sys2Proof.Machine.execFbResetDirty s
  | .m1m1Assign => Sys2Proof.Machine.execM1m1Assign s
  | .m1m1AssignInverted => Sys2Proof.Machine.execM1m1AssignInverted s
  | .m1m1Or => Sys2Proof.Machine.execM1m1Or s
  | .m1m1And => Sys2Proof.Machine.execM1m1And s
  | .m1m1Clear => Sys2Proof.Machine.execM1m1Clear s
  | .m1m1Set => Sys2Proof.Machine.execM1m1Set s
  | .m1m1Tint => Sys2Proof.Machine.execM1m1Tint s
  | .m1m1TintLuminance => Sys2Proof.Machine.execM1m1TintLuminance s
  | .palm1AssignP1 => Sys2Proof.Machine.execPalm1AssignP1 s
  | .palm1AssignP2 => Sys2Proof.Machine.execPalm1AssignP2 s
  | .palm1AssignInvertedP1 => Sys2Proof.Machine.execPalm1AssignInvertedP1 s
  | .palm1AssignInvertedP2 => Sys2Proof.Machine.execPalm1AssignInvertedP2 s
  | .palm1OrP1 => Sys2Proof.Machine.execPalm1OrP1 s
  | .palm1OrP2 => Sys2Proof.Machine.execPalm1OrP2 s
  | .palm1AndP1 => Sys2Proof.Machine.execPalm1AndP1 s
  | .palm1AndP2 => Sys2Proof.Machine.execPalm1AndP2 s
  | .palm1ClearP1 => Sys2Proof.Machine.execPalm1ClearP1 s
  | .palm1ClearP2 => Sys2Proof.Machine.execPalm1ClearP2 s
  | .palm1SetP1 => Sys2Proof.Machine.execPalm1SetP1 s
  | .palm1SetP2 => Sys2Proof.Machine.execPalm1SetP2 s
  | .palm1TintP1 => Sys2Proof.Machine.execPalm1TintP1 s
  | .palm1TintP2 => Sys2Proof.Machine.execPalm1TintP2 s
  | .palm1TintLuminanceP1 => Sys2Proof.Machine.execPalm1TintLuminanceP1 s
  | .palm1TintLuminanceP2 => Sys2Proof.Machine.execPalm1TintLuminanceP2 s
  | .palc8AssignP1 d => Sys2Proof.Machine.execPalc8AssignP1 d s
  | .palc8AssignP24 d f => Sys2Proof.Machine.execPalc8AssignP24 d f s
  | .palc8AssignInvertedP1 d => Sys2Proof.Machine.execPalc8AssignInvertedP1 d s
  | .palc8AssignInvertedP24 d f => Sys2Proof.Machine.execPalc8AssignInvertedP24 d f s
  | .palc8OrP1 d => Sys2Proof.Machine.execPalc8OrP1 d s
  | .palc8OrP24 d f => Sys2Proof.Machine.execPalc8OrP24 d f s
  | .palc8AndP1 d => Sys2Proof.Machine.execPalc8AndP1 d s
  | .palc8AndP24 d f => Sys2Proof.Machine.execPalc8AndP24 d f s
  | .palc8ClearP1 d => Sys2Proof.Machine.execPalc8ClearP1 d s
  | .palc8ClearP24 d f => Sys2Proof.Machine.execPalc8ClearP24 d f s
  | .palc8SetP1 d => Sys2Proof.Machine.execPalc8SetP1 d s
  | .palc8SetP24 d f => Sys2Proof.Machine.execPalc8SetP24 d f s
  | .palc8TintP1 d => Sys2Proof.Machine.execPalc8TintP1 d s
  | .palc8TintP24 d f => Sys2Proof.Machine.execPalc8TintP24 d f s
  | .palc8TintLuminanceP1 d => Sys2Proof.Machine.execPalc8TintLuminanceP1 d s
  | .palc8TintLuminanceP24 d f => Sys2Proof.Machine.execPalc8TintLuminanceP24 d f s
  | .c8c8Assign d f => Sys2Proof.Machine.execC8c8Assign d f s
  | .c8c8AssignInverted d f => Sys2Proof.Machine.execC8c8AssignInverted d f s
  | .c8c8Or d f => Sys2Proof.Machine.execC8c8Or d f s
  | .c8c8And d f => Sys2Proof.Machine.execC8c8And d f s
  | .c8c8Clear d f => Sys2Proof.Machine.execC8c8Clear d f s
  | .c8c8Set d f => Sys2Proof.Machine.execC8c8Set d f s
  | .c8c8Tint d f => Sys2Proof.Machine.execC8c8Tint d f s
  | .c8c8TintLuminance d f => Sys2Proof.Machine.execC8c8TintLuminance d f s
  | .m1c8Assign d => Sys2Proof.Machine.execM1c8Assign d s
  | .m1c8AssignInverted d => Sys2Proof.Machine.execM1c8AssignInverted d s
  | .m1c8Or d => Sys2Proof.Machine.execM1c8Or d s
  | .m1c8And d => Sys2Proof.Machine.execM1c8And d s
  | .m1c8Clear d => Sys2Proof.Machine.execM1c8Clear d s
  | .m1c8Set d => Sys2Proof.Machine.execM1c8Set d s
  | .m1c8Tint d => Sys2Proof.Machine.execM1c8Tint d s
  | .m1c8TintLuminance d => Sys2Proof.Machine.execM1c8TintLuminance d s
  | .unsupportedDPalette1 _ _ => Sys2Proof.Machine.execUnsupportedDPalette1 s
  | .unsupportedDPalette24 _ _ _ => Sys2Proof.Machine.execUnsupportedDPalette24 s
  | .unsupportedDReserved _ _ _ => Sys2Proof.Machine.execUnsupportedDReserved s
  | .unsupportedMono1FromP4 _ => Sys2Proof.Machine.execUnsupportedMono1FromP4 s
  | .unsupportedMono1FromC8OrReserved _ _ => Sys2Proof.Machine.execUnsupportedMono1FromC8OrReserved s
  | .unsupportedC8FromReserved _ _ _ => Sys2Proof.Machine.execUnsupportedC8FromReserved s

end Sys2Proof.Machine
end

