-- ==== Sys2Proof/Machine/Bus.lean ====
section
/-! DEFINITION. What the host does to the engine: register writes and reads (10_state R20, R49), issuing a command
(60_exceptions R320), PIXMEM accesses (20_memory R60) and reset (70_reset R340). -/

namespace Sys2Proof.Machine

/-- A packet given to the engine: its instruction, or the rejection by name (60_exceptions R316, R320). -/
def runPacket (p : Packet) (s : State) : Answer :=
  match decode p with
  | .ok i => exec i s
  | .error .illegalCommand => whenAccepting s fun s => .next (raiseError .illegalCmd s)
  | .error .reservedKeyBits => .refused .noSuchKey
  | .error .unmatchedKey => .refused .noSuchKey

/-- A host register write (10_state R20, R23 to R49): read-only and unmapped offsets are ignored. -/
def regWrite (off : Nat) (w : Word) (s : State) : Answer :=
  match off with
  | 0x00 => runPacket (.cmd w) s
  | 0x08 => .next { s with errlog := s.errlog &&& ~~~w }
  | 0x18 => .next { s with arg0 := w &&& argMask }
  | 0x20 => .next { s with srcAddr := w }
  | 0x24 => .next { s with srcFmt := w &&& fmtMask }
  | 0x28 => .next { s with srcOrg := w }
  | 0x2C => .next { s with srcSize := w }
  | 0x30 => .next { s with srcPal := w }
  | 0x40 => .next { s with dstAddr := w }
  | 0x44 => .next { s with dstFmt := w &&& fmtMask }
  | 0x48 => .next { s with dstOrg := w }
  | 0x4C => .next { s with dstSize := w }
  | 0x60 => .next { s with rectOrg := w }
  | 0x64 => .next { s with rectSize := w }
  | 0x68 => .next { s with offs := w }
  | 0x6C => .next { s with ctrl := w &&& ctrlMask }
  | _ => .next s

/-- `FB_SIZE` (10_state R41). -/
def fbSizeReg (c : Cfg) : Word := packFields c.fbCols c.fbRows

/-- `FB_CFG` (10_state R46). -/
def fbCfgReg (c : Cfg) : Word := packFields (fmtCode c.fbFormat).toNat (bytesPerRow c)

/-- A host register read (10_state R20, R49): CMD and unmapped offsets read 0. -/
def regRead (off : Nat) (s : State) : Word :=
  match off with
  | 0x04 => s.status
  | 0x08 => s.errlog
  | 0x0C => s.res0
  | 0x10 => s.res1
  | 0x14 => s.res2
  | 0x18 => s.arg0
  | 0x20 => s.srcAddr
  | 0x24 => s.srcFmt
  | 0x28 => s.srcOrg
  | 0x2C => s.srcSize
  | 0x30 => s.srcPal
  | 0x40 => s.dstAddr
  | 0x44 => s.dstFmt
  | 0x48 => s.dstOrg
  | 0x4C => s.dstSize
  | 0x60 => s.rectOrg
  | 0x64 => s.rectSize
  | 0x68 => s.offs
  | 0x6C => s.ctrl
  | 0x80 => fbSizeReg s.cfg
  | 0x84 => s.fbDirtyOrg
  | 0x88 => s.fbDirtySize
  | 0x8C => s.fbFlags
  | 0x90 => s.fbCursor
  | 0x94 => BitVec.ofNat 32 s.cfg.fbBase
  | 0x98 => fbCfgReg s.cfg
  | _ => 0

/-- A host write of one byte of PIXMEM (20_memory R60, R69; entry 14). -/
def hostMemWrite (a : Word) (v : Byte) (s : State) : Answer :=
  match writeByte (pixEnv s) s.mem a.toNat v with
  | .error x => stopAnswer x
  | .ok m => .next (setMem s m)

/-- A host read of one byte of PIXMEM (20_memory R60, R69; entry 14). -/
def hostMemRead (a : Word) (s : State) : Answer :=
  match readByte (pixEnv s) s.mem a.toNat with
  | .error x => stopAnswer x
  | .ok v => .next { s with readData := v.zeroExtend 32 }

/-- One host operation (20_memory R70; entry 1). -/
def perform (op : HostOp) (s : State) : Answer :=
  match op with
  | .regWrite off w => regWrite off w s
  | .regRead off => .next { s with readData := regRead off s }
  | .memWrite a v => hostMemWrite a v s
  | .memRead a => hostMemRead a s
  | .routineCall k => runPacket (.key k) s
  | .reset => .next (resetEvent s)

/-- The host operation that gives the engine a packet (30_encoding R97, entry 2). -/
def packetOp : Packet → HostOp
  | .cmd w => .regWrite 0 w
  | .key k => .routineCall k

end Sys2Proof.Machine
end

