-- ==== Sys2Proof/Machine/Step.lean ====
section
/-! DEFINITION. One step: the next operation of the host, or nothing while the engine is idle (20_memory R70,
70_reset R342; entry 1). -/

namespace Sys2Proof.Machine

/-- The engine meets the host's next operation; with none pending it is idle (60_exceptions R327, 70_reset R342). -/
def step (s : State) : Host.Outcome State Fault Refusal :=
  match s.inbox with
  | [] => .next s
  | op :: rest => perform op { s with inbox := rest }

/-- `s` with an instruction's packet as the host's next operation: a CMD word is written to CMD, a dispatch key is
called at routine level (entries 1, 2). -/
def State.withFetchWord (s : State) (nbits w : Nat) : State :=
  { s with inbox := packetOp (packetOf nbits w) :: s.inbox }

end Sys2Proof.Machine
end

