-- ==== Sys2Proof/Safety.lean ====
section
/-! DEFINITION. The terms of the claims: when a command is executed, how it ends, what a bitmap shows, what a row of the
dispatch table paints, when it runs to its end, and the invariant every step keeps. -/

namespace Sys2Proof.Machine

/-! ### How a command ends (60_exceptions R310, R311, R318) -/

/-- The engine executes commands: `STATUS.FATAL` is 0 (60_exceptions R320 step 1). -/
def accepting (s : State) : Bool := !s.status.getLsbD 31

/-- STATUS with `CODE` zero and every other bit kept (10_state R24). -/
def okStatus (st : Word) : Word := st &&& 0xFFFFFFF0

/-- STATUS with `CODE` holding `n` and every other bit kept (10_state R24). -/
def errorStatus (st : Word) (n : Nat) : Word := (st &&& 0xFFFFFFF0) ||| BitVec.ofNat 32 n

/-- STATUS with `FATAL` set, `FCAUSE` holding `cause` and every other bit kept (10_state R24, 60_exceptions R318). -/
def haltStatus (st : Word) (cause : Nat) : Word :=
  (st &&& 0x7FFFF0FF) ||| 0x80000000 ||| BitVec.ofNat 32 (cause * 256)

/-- The state after a command that ends with `OK` and leaves PIXMEM as `m`, nothing else changed. -/
def endedOk (s : State) (m : Memory) : State := { s with mem := m, status := okStatus s.status }

/-- The state after a command that ends with code `n` and sets the bits `log` of ERRLOG, nothing else changed
(60_exceptions R311). -/
def endedError (s : State) (n : Nat) (log : Word) : State :=
  { s with status := errorStatus s.status n, errlog := s.errlog ||| log }

/-- The state after a command that enters the fatal halt and leaves PIXMEM as `m`, nothing else changed
(60_exceptions R318). -/
def endedHalt (s : State) (m : Memory) (cause : Nat) : State :=
  { s with mem := m, status := haltStatus s.status cause }

/-! ### What a bitmap shows (40_primitives R135 to R142) -/

/-- The byte of PIXMEM at an address, as a read gives it (20_memory R69, R77). -/
def byteAt (s : State) (a : Int) : Byte := peek s.epoch s.mem (pixAddr a)

/-- The byte that holds a Mono1 pixel: byte `x div 8` of its row (20_memory R63). -/
def monoByte (b : Bitmap) (x y : Int) : Int := b.addr + y * b.stride + x / 8

/-- A Mono1 pixel: bit `x mod 8` of its byte (20_memory R63). -/
def monoPixel (s : State) (b : Bitmap) (x y : Int) : Bool :=
  (byteAt s (monoByte b x y)).getLsbD (x % 8).toNat

/-- The index a palette pixel holds (40_primitives R136). -/
def indexPixel (s : State) (b : Bitmap) (x y : Int) : Nat :=
  let n := bpp b.format
  let ppb := 8 / n
  let k := (x % ppb).toNat
  let shift := if s.cfg.palMsbFirst then (ppb - 1 - k) * n else k * n
  (byteAt s (b.addr + y * b.stride + x * n / 8)).toNat / 2 ^ shift % 2 ^ n

/-- The colour a palette pixel shows (40_primitives R137). -/
def palettePixel (s : State) (b : Bitmap) (x y : Int) : Color := byteAt s (b.palette + indexPixel s b x y)

/-- The offset of column 0 in a row of the table (10_state R45). -/
def rowOffset (tab : List RowEntry) (y : Int) : Int := (tab[y.toNat]?.map RowEntry.offset).getD 0

/-- The address of a pixel of an 8-bit bitmap (40_primitives R138, R141, R142). -/
def colorByte (tab : List RowEntry) (b : Bitmap) (x y : Int) : Int :=
  if b.format = .color8Circular then b.addr + rowOffset tab y + x else b.addr + y * b.stride + x

/-- The colour a pixel of an 8-bit bitmap shows (40_primitives R138). -/
def colorPixel (s : State) (b : Bitmap) (x y : Int) : Color := byteAt s (colorByte s.cfg.rowtab b x y)

/-- Row `y` of a bitmap has a pixel in column `x`: for an 8-bit bitmap the row window, for Mono1 every column
(40_primitives R141 to R143). -/
def inWindow (tab : List RowEntry) (b : Bitmap) (x y : Int) : Bool :=
  match b.format with
  | .color8Circular =>
    match tab[y.toNat]? with
    | some e => 0 ≤ y && e.minX ≤ x && x ≤ e.maxX
    | none => false
  | .color8 => 0 ≤ x && x ≤ b.bounds.x + b.bounds.w - 1
  | .mono1 | .palette1 | .palette2 | .palette4 | .reserved6 | .reserved7 => true

/-! ### What a row of the dispatch table visits and paints -/

/-- The pixels a BLIT visits and does not skip, in order (00_scope R14, R15). -/
def visited (s : State) (a : BlitArgs) : List Px := (blitPlan s.cfg.rowtab a).pixels

/-- The value of byte `b` after the pixels of a list, one after another, have each painted their own byte of an 8-bit
destination; `paint p d` is what pixel `p` makes of the byte's value `d` (20_memory R71). -/
def paintedByte (tab : List RowEntry) (dst : Bitmap) (paint : Px → Color → Color) (px : List Px) (b : Nat)
    (old : Color) : Color :=
  px.foldl (fun d p => if pixAddr (colorByte tab dst p.dx p.dy) = b then paint p d else d) old

/-- The value of bit `k` of byte `b` after the pixels of a list, one after another, have each painted their own bit of
a Mono1 destination (20_memory R71). -/
def paintedBit (dst : Bitmap) (paint : Px → Bool → Bool) (px : List Px) (b k : Nat) (old : Bool) : Bool :=
  px.foldl (fun d p => if pixAddr (monoByte dst p.dx p.dy) = b ∧ (p.dx % 8).toNat = k then paint p d else d) old

/-- Each byte of `m` is what the visited pixels make of the byte in `s`; a byte that no visited pixel owns reads as
before. -/
def bytesPainted (a : BlitArgs) (paint : Px → Color → Color) (s : State) (m : Memory) : Prop :=
  (∀ b, peek s.epoch m b = paintedByte s.cfg.rowtab a.dst paint (visited s a) b (peek s.epoch s.mem b))
    ∧ ∀ b, (∀ p ∈ visited s a, pixAddr (colorByte s.cfg.rowtab a.dst p.dx p.dy) ≠ b) →
        peek s.epoch m b = peek s.epoch s.mem b

/-- Each bit of `m` is what the visited pixels make of the bit in `s`; a bit that no visited pixel owns reads as
before. -/
def bitsPainted (a : BlitArgs) (paint : Px → Bool → Bool) (s : State) (m : Memory) : Prop :=
  (∀ b k, k < 8 → (peek s.epoch m b).getLsbD k
      = paintedBit a.dst paint (visited s a) b k ((peek s.epoch s.mem b).getLsbD k))
    ∧ ∀ b k, (∀ p ∈ visited s a, pixAddr (monoByte a.dst p.dx p.dy) ≠ b ∨ (p.dx % 8).toNat ≠ k) →
        (peek s.epoch m b).getLsbD k = (peek s.epoch s.mem b).getLsbD k

/-- `i` ends with `OK`, the visited bytes painted and nothing else of the state changed but STATUS. -/
def paintsBytes (i : Instr) (a : BlitArgs) (paint : Px → Color → Color) (s : State) : Prop :=
  ∃ m, exec i s = .next (endedOk s m) ∧ bytesPainted a paint s m

/-- `i` ends with `OK`, the visited bits painted and nothing else of the state changed but STATUS. -/
def paintsBits (i : Instr) (a : BlitArgs) (paint : Px → Bool → Bool) (s : State) : Prop :=
  ∃ m, exec i s = .next (endedOk s m) ∧ bitsPainted a paint s m

/-- `i` enters the fatal halt on a row index, the bytes of the rows above painted and nothing else of the state
changed but STATUS (60_exceptions R318, R323). -/
def haltsAfterBytes (i : Instr) (a : BlitArgs) (paint : Px → Color → Color) (s : State) : Prop :=
  ∃ m, exec i s = .next (endedHalt s m 1) ∧ bytesPainted a paint s m

/-! ### The paint of each routine -/

/-- What a pixel of PALC8 or C8C8 with source colour `c` makes of the destination byte `d` (44_palette_to_color8 R222,
45_color8_to_color8 R241, R243). Only C8C8 gives the four operators beside `Assign` this meaning. -/
def combinedByte (lib : ColorLib) (op : CompOp) (tint c d : Color) : Color :=
  match op with
  | .assign | .assignInverted | .or | .and | .clear => c
  | .set => lib.alphaBlend c d
  | .tint => lib.alphaBlend (withAlpha tint (alpha c)) d
  | .tintLuminance => lib.alphaBlend (withAlpha (lib.tintViaLuminance c tint) (alpha c)) d

/-- What a pixel of M1C8 with source bit `bit` makes of the destination byte `d` (46_mono1_to_color8 R262). -/
def expandedByte (op : CompOp) (tint : Color) (bit : Bool) (d : Color) : Color :=
  match op, bit with
  | .assign, true => 0xFF
  | .assign, false => 0xC0
  | .assignInverted, true => 0xC0
  | .assignInverted, false => 0xFF
  | .or, true => 0xFF
  | .or, false => d
  | .and, true => d
  | .and, false => 0xC0
  | .clear, true => 0xC0
  | .clear, false => d
  | .set, true => d
  | .set, false => 0xFF
  | .tint, true => d
  | .tint, false => tint
  | .tintLuminance, true => d
  | .tintLuminance, false => tint

/-- The colour PALM1 reduces to grey: step (1) of its table (43_palette_to_mono1 R202). -/
def recoloured (lib : ColorLib) (op : CompOp) (tint c : Color) : Color :=
  match op with
  | .assign => withAlpha c 3
  | .tint => withAlpha tint (alpha c)
  | .tintLuminance => withAlpha (lib.tintViaLuminance c tint) (alpha c)
  | .assignInverted | .or | .and | .clear | .set => c

/-- The bit a grey gives at column `x` of row `y`: white, black or the checkerboard (43_palette_to_mono1 R203). -/
def ditheredBit (lib : ColorLib) (g : Color) (x y : Int) : Bool :=
  if lib.equal g 0xFF then true
  else if lib.equal g 0xC0 then false
  else (x + y) % 2 = 1

/-- What a pixel of PALM1 with palette colour `c` makes of the destination bit `d` (43_palette_to_mono1 R204). -/
def greyedBit (lib : ColorLib) (op : CompOp) (tint c : Color) (x y : Int) (d : Bool) : Bool :=
  let g := lib.grayscale (recoloured lib op tint c)
  if alpha g = 0 then d else ditheredBit lib g x y

/-! ### When a row runs -/

/-- Every byte of a list is backed (20_memory R60). -/
def backedBytes (s : State) (bs : List Nat) : Bool := bs.all (isBacked s.cfg.backed)

/-- The first byte of a list that is not backed (20_memory R60). -/
def firstUnbacked (s : State) (bs : List Nat) : Option Nat := bs.find? fun b => !isBacked s.cfg.backed b

/-- Every byte the visited pixels may touch is backed, and source and destination do not meet (20_memory R60, R72). -/
def touchable (s : State) (a : BlitArgs) : Bool :=
  backedBytes s (paletteBytes a.src)
    && (visited s a).all (fun p => backedBytes s (srcBytes a.src p) && backedBytes s (dstBytes a.dst p))
    && !footprintsMeet a (visited s a)

/-- The walk over the rows reaches the last one, and every byte may be touched. -/
def runs (s : State) (a : BlitArgs) : Bool := (blitPlan s.cfg.rowtab a).stop == none && touchable s a

/-- The walk over the rows ends at a row that a circular bitmap does not have, and every byte of the rows above may be
touched (40_primitives R142). -/
def runsOffTable (s : State) (a : BlitArgs) : Bool :=
  (blitPlan s.cfg.rowtab a).stop == some (.fatal .rowIndexOutOfBounds) && touchable s a

/-- What a routine that rejects its operator reads before it does is backed: the palette and the first visited
pixel's source (43_palette_to_mono1 R210, 44_palette_to_color8 R228). -/
def readable (s : State) (a : BlitArgs) : Bool :=
  backedBytes s (paletteBytes a.src) && (visited s a).head?.all fun p => backedBytes s (srcBytes a.src p)

/-- The caller's obligations on the geometry of a BLIT (70_reset R346 (a), (b), (c)). -/
def contract (a : BlitArgs) : Bool :=
  let sb := a.src.bounds
  let db := a.dst.bounds
  (0 ≤ a.rect.x && 0 ≤ a.rect.y && 0 ≤ sb.x && 0 ≤ sb.y && 0 ≤ db.x && 0 ≤ db.y && 0 ≤ db.w && 0 ≤ db.h)
    && (db.x ≤ a.rect.x && maxX a.rect ≤ maxX db && db.y ≤ a.rect.y && maxY a.rect ≤ maxY db)
    && (0 ≤ a.off.x && a.off.x < sb.w && 0 ≤ a.off.y && a.off.y < sb.h)

/-- A coordinate or a size that R148 and U4 exclude is negative (40_primitives R148, 93 U4; entry 10). -/
def negativeOperands (a : BlitArgs) : Bool :=
  let sb := a.src.bounds
  let db := a.dst.bounds
  [a.rect.x, a.rect.y, sb.x, sb.y, sb.w, sb.h, db.x, db.y, db.w, db.h].any (· < 0)

/-- The source offset lies outside the source bounds, or these are empty (40_primitives R145, R146, 93 U6). -/
def offsetMisses (a : BlitArgs) : Bool :=
  !(0 ≤ a.off.x && a.off.x < a.src.bounds.w && 0 ≤ a.off.y && a.off.y < a.src.bounds.h)

/-- A row that a circular bitmap has in the table; a bitmap of another format has every row (40_primitives R141,
R142). -/
def rowKnown (tab : List RowEntry) (b : Bitmap) (y : Int) : Bool :=
  b.format != .color8Circular || (0 ≤ y && y < tab.length)

/-- The rectangle has a column in the window of destination row `y` (40_primitives R143). -/
def rowVisits (tab : List RowEntry) (a : BlitArgs) (y : Int) : Bool :=
  (intRange a.rect.x (maxX a.rect)).any fun x => inWindow tab a.dst x y

/-- The row-index checks of destination row `y` pass: its own, and for a circular source that of `srcY`, or, where the
offset leaves `srcY` undefined, there is none because the row visits a column (60_exceptions R320; entry 8). -/
def rowChecksPass (tab : List RowEntry) (a : BlitArgs) (y : Int) : Bool :=
  rowKnown tab a.dst y
    && (a.src.format != .color8Circular
      || (if 0 ≤ a.off.y && a.off.y < a.src.bounds.h then rowKnown tab a.src (srcY a y) else rowVisits tab a y))

/-- The table has every row that a circular bitmap of these bounds has. -/
def rowsInTable (tab : List RowEntry) (b : Bitmap) : Bool :=
  b.format != .color8Circular || (0 ≤ b.bounds.y && maxY b.bounds ≤ tab.length)

/-- The fifteen pairs of source and destination format that have a routine (30_encoding R105). -/
def supportedPairs : List (PixelFormat × PixelFormat) := [
  (.mono1, .mono1),
  (.palette1, .mono1), (.palette2, .mono1),
  (.palette1, .color8), (.palette1, .color8Circular), (.palette2, .color8), (.palette2, .color8Circular),
  (.palette4, .color8), (.palette4, .color8Circular),
  (.color8, .color8), (.color8, .color8Circular), (.color8Circular, .color8), (.color8Circular, .color8Circular),
  (.mono1, .color8), (.mono1, .color8Circular)]

/-- A palette format (30_encoding R95). -/
def isPaletteFormat (f : PixelFormat) : Bool := f == .palette1 || f.isPalette24

/-- The operators that the palette routines permit (43_palette_to_mono1 R201, 44_palette_to_color8 R222). -/
def permittedFromPalette (op : CompOp) : Bool := op == .assign || op == .set || op == .tint || op == .tintLuminance

/-- The checks of a BLIT before its loop all pass, and the operator is permitted (60_exceptions R320 steps d, e, f). -/
def entryPasses (op : CompOp) (a : BlitArgs) : Bool :=
  supportedPairs.contains (a.src.format, a.dst.format)
    && (!isPaletteFormat a.src.format || (a.src.palette != 0 && permittedFromPalette op))
    && (a.src.format != .mono1 || isAligned a.src)
    && (a.dst.format != .mono1 || isAligned a.dst)

/-- The laws L1 to L6 of a colour library (40_primitives R131). -/
def LawfulLibrary (lib : ColorLib) : Prop :=
  (∀ c d, alpha c = 0 → lib.alphaBlend c d = d)
    ∧ (∀ c d, alpha c = 3 → lib.alphaBlend c d = c)
    ∧ (lib.grayscale 0xFF = 0xFF ∧ lib.grayscale 0xC0 = 0xC0)
    ∧ (∀ c, alpha (lib.grayscale c) = alpha c)
    ∧ (lib.getBw 0xFF = 0xFF ∧ lib.getBw 0xC0 = 0xC0 ∧ ∀ c, alpha c = 0 → alpha (lib.getBw c) = 0)
    ∧ ((∀ a, lib.equal a a = true) ∧ (∀ a b, lib.equal a b = lib.equal b a) ∧ lib.equal 0xFF 0xC0 = false
        ∧ ∀ c, alpha c = 0 → lib.equal 0xFF c = false ∧ lib.equal 0xC0 c = false)

/-! ### The framebuffer -/

/-- The address of the first stored byte of a framebuffer row (47_framebuffer R283). -/
def fbRowStart (c : Cfg) (y : Int) : Int :=
  if c.fbFormat = .color8Circular then
    c.fbBase + rowOffset c.rowtab y + ((c.rowtab[y.toNat]?.map RowEntry.minX).getD 0 : Nat)
  else c.fbBase + y * bytesPerRow c

/-- How many bytes a framebuffer row stores (47_framebuffer R296). -/
def fbRowLength (c : Cfg) (y : Int) : Nat :=
  if c.fbFormat = .color8Circular then (c.rowtab[y.toNat]?.map fun e => e.maxX + 1 - e.minX).getD 0
  else bytesPerRow c

/-- The bytes of a framebuffer row (47_framebuffer R296). -/
def fbRowBytes (s : State) (y : Int) : List Byte :=
  (List.range (fbRowLength s.cfg y)).map fun (i : Nat) => byteAt s (fbRowStart s.cfg y + i)

/-- The rows the flush iterator has still to give (47_framebuffer R292). -/
def rowsLeft (s : State) : Nat :=
  if isDirtyFlag s.fbFlags then ((dirtyRect s).h - s.fbCursor.toNat).toNat else 0

/-- The same instruction executed a number of times, to the first fault or refusal. -/
def repeatExec (i : Instr) : Nat → State → Answer
  | 0, s => .next s
  | n + 1, s =>
    match exec i s with
    | .next t => repeatExec i n t
    | .fault r => .fault r
    | .refused r => .refused r

/-- `FB_MARK_DIRTY` issued once for each pair of a RECT_ORG and a RECT_SIZE word (47_framebuffer R287). -/
def markAll : List (Word × Word) → State → Answer
  | [], s => .next s
  | (o, z) :: rest, s =>
    match exec .fbMarkDirty { s with rectOrg := o, rectSize := z } with
    | .next t => markAll rest t
    | .fault r => .fault r
    | .refused r => .refused r

/-! ### The invariant -/

/-- STATUS holds a code the engine produces and zero in its reserved bits, and a cause exactly in the fatal halt
(10_state R24, 30_encoding R103). -/
def statusLegal (st : Word) : Bool :=
  st &&& 0x7FFFF0F0 == 0 && (st.extractLsb' 0 4).toNat ≤ 5
    && (if st.getLsbD 31 then st.extractLsb' 8 4 == 1 || st.extractLsb' 8 4 == 2 else st.extractLsb' 8 4 == 0)

/-- The dirty rectangle lies in the framebuffer's bounds, an empty one having any origin that is not negative
(47_framebuffer R287). -/
def dirtyInBounds (s : State) : Bool :=
  let d := dirtyRect s
  0 ≤ d.x && 0 ≤ d.y && 0 ≤ d.w && 0 ≤ d.h
    && (d.w == 0 || maxX d ≤ s.cfg.fbCols) && (d.h == 0 || maxY d ≤ s.cfg.fbRows)

/-- What holds of the state between steps: memory in canonical form, a well-formed configuration, reserved bits zero
(10_state R49), a legal STATUS, only the three logged errors in ERRLOG (R25), the dirty rectangle in bounds, a cursor
no higher than the framebuffer, and in state Clean an empty rectangle and a cursor of zero (47_framebuffer R299). -/
def inv (s : State) : Bool :=
  memWf s.mem && cfgWf s.cfg
    && s.arg0 &&& 0xFFFF0000 == 0 && s.srcFmt &&& 0x0000FFF8 == 0 && s.dstFmt &&& 0x0000FFF8 == 0
    && s.ctrl &&& 0xFFFF00F8 == 0
    && statusLegal s.status && s.errlog &&& 0xFFFFFFD5 == 0
    && s.fbFlags.toNat ≤ 1 && s.fbCursor.toNat ≤ s.cfg.fbRows
    && dirtyInBounds s
    && (isDirtyFlag s.fbFlags || (s.fbDirtySize == 0 && s.fbCursor == 0))

end Sys2Proof.Machine
end

