-- ==== Sys2Proof/Certificates/Slice0/Obligations.lean ====
section
/-! DEFINITION. The statements for the provers, from the numbered rules of spec/. Each title in OBLIGATIONS.json says what its
statement says; a docstring names the rules. -/

open Sys2Proof Sys2Proof.Machine

/-- Decoding the encoding of any well-formed instruction gives it back (30_encoding R97, 30_encoding R100, 30_encoding R104, 30_encoding R105). -/
def Obligations.DecodeUndoesEncode : Prop :=
  ∀ i : Instr, i.wellFormed = true → decode (encode i) = .ok i

/-- Whatever the decoder reads is well formed and encodes to the very packet it was read from (30_encoding R97, 30_encoding R102, 30_encoding R105). -/
def Obligations.EncodeUndoesDecode : Prop :=
  ∀ (p : Packet) (i : Instr), decode p = .ok i → i.wellFormed = true ∧ encode i = p

/-- Each of the 512 dispatch keys matches exactly one row of the table (30_encoding R105). -/
def Obligations.EveryKeyHasOneRow : Prop :=
  ∀ k : BitVec 9, (keyRows.filter fun r => k &&& r.mask == r.pat).length = 1

/-- Words written out from the encoding tables decode to the rows they stand for (30_encoding R100, 30_encoding R104, 30_encoding R105). -/
def Obligations.WordsWrittenOutDecode : Prop :=
  decode (.cmd 0x00000001) = .ok .blit
    ∧ decode (.cmd 0x00000015) = .ok .fbNextRow
    ∧ decode (.key 0b010_000_000) = .ok .m1m1Or
    ∧ decode (.key 0b101_000_010) = .ok .palm1SetP2
    ∧ decode (.key 0b111_101_011) = .ok (.palc8TintLuminanceP24 .color8Circular .palette4)
    ∧ decode (.key 0b110_100_101) = .ok (.c8c8Tint .color8 .color8Circular)
    ∧ decode (.key 0b011_101_000) = .ok (.m1c8And .color8Circular)
    ∧ decode (.key 0b100_010_111) = .ok (.unsupportedDPalette24 .clear .palette2 .reserved7)
    ∧ decode (.cmd 0x00000101) = .error .illegalCommand
    ∧ decode (.key 0b1_010_000_000) = .error .reservedKeyBits

/-- A step runs the instruction its host operation decodes to, and an idle engine keeps its state (30_encoding R97, 20_memory R70, 41_dispatch R160). -/
def Obligations.StepRunsDecodedInstruction : Prop :=
  (∀ (s : State) (p : Packet) (i : Instr) (rest : List HostOp), decode p = .ok i → s.inbox = packetOp p :: rest →
      step s = exec i { s with inbox := rest })
    ∧ ∀ s : State, s.inbox = [] → step s = .next s

/-- A CMD word that is none of the ten opcodes ends with code 5 and log bit 5, nothing else (R316). -/
def Obligations.UnmatchedCommandIsIllegal : Prop :=
  ∀ (w : Word) (s : State), accepting s = true →
    w ∉ [0x01, 0x02, 0x03, 0x10, 0x11, 0x12, 0x13, 0x14, 0x15, 0x16] →
    regWrite 0x00 w s = .next (endedError s 5 0x20)

/-- In the fatal halt no CMD write changes anything, and no row called by key does (60_exceptions R318, 60_exceptions R320, 70_reset R352). -/
def Obligations.HaltedEngineIgnoresCommands : Prop :=
  ∀ s : State, accepting s = false →
    (∀ w : Word, regWrite 0x00 w s = .next s)
      ∧ ∀ i : Instr, i ≠ .m1m1Tint → i ≠ .m1m1TintLuminance → exec i s = .next s

/-- Once halted, every host operation but reset keeps STATUS whole, and reset clears it (60_exceptions R318, 60_exceptions R324, 70_reset R340, 10_state R50). -/
def Obligations.OnlyResetLeavesTheHalt : Prop :=
  ∀ (s : State), accepting s = false →
    (∀ (op : HostOp) (t : State), op ≠ .reset → perform op s = .next t → t.status = s.status)
      ∧ ∃ t, perform .reset s = .next t ∧ accepting t = true

/-- The reset event leaves every register at the value the table gives, no byte of PIXMEM with a value, and Cfg as it was (R341). -/
def Obligations.ResetValues : Prop :=
  ∀ s : State, ∃ t, perform .reset s = .next t
    ∧ (t.arg0 = 0 ∧ t.srcAddr = 0 ∧ t.srcFmt = 0 ∧ t.srcOrg = 0 ∧ t.srcSize = 0 ∧ t.srcPal = 0 ∧ t.dstAddr = 0
        ∧ t.dstFmt = 0 ∧ t.dstOrg = 0 ∧ t.dstSize = 0 ∧ t.rectOrg = 0 ∧ t.rectSize = 0 ∧ t.offs = 0 ∧ t.ctrl = 0)
    ∧ (t.status = 0 ∧ t.errlog = 0 ∧ t.res0 = 0 ∧ t.res1 = 0 ∧ t.res2 = 0)
    ∧ (t.fbDirtyOrg = 0 ∧ t.fbDirtySize = 0 ∧ t.fbFlags = 0 ∧ t.fbCursor = 0)
    ∧ (regRead 0x80 t = regRead 0x80 s ∧ regRead 0x94 t = regRead 0x94 s ∧ regRead 0x98 t = regRead 0x98 s)
    ∧ regRead 0x00 t = 0
    ∧ (∀ a, memGet t.mem a = none)
    ∧ t.cfg = s.cfg

/-- The state after reset meets the invariant that every step keeps (70_reset R341, 10_state R49, 47_framebuffer R287). -/
def Obligations.ResetStateMeetsInvariant : Prop :=
  inv State.reset = true

/-- Every step that answers a next state keeps memory canonical, STATUS legal, reserved bits zero and the dirty rectangle in bounds (10_state R24, 10_state R25, 10_state R49, 20_memory R60, 47_framebuffer R287, 47_framebuffer R299). -/
def Obligations.StepKeepsInvariant : Prop :=
  ∀ s t : State, inv s = true → step s = .next t → inv t = true

/-- A register write stores the writable bits of its own register and changes no other; ERRLOG is cleared by ones (10_state R20, 10_state R25, 10_state R49, 30_encoding R93, 30_encoding R94). -/
def Obligations.RegisterWritesKeepOnlyWritableBits : Prop :=
  ∀ (off : Nat) (w : Word) (s : State), off ≠ 0 → ∃ t, regWrite off w s = .next t
    ∧ regRead off t =
        (if off = 0x08 then s.errlog &&& ~~~w
         else if off = 0x18 then w &&& 0x0000FFFF
         else if off = 0x24 ∨ off = 0x44 then w &&& 0xFFFF0007
         else if off = 0x6C then w &&& 0x0000FF07
         else if off ∈ [0x20, 0x28, 0x2C, 0x30, 0x40, 0x48, 0x4C, 0x60, 0x64, 0x68] then w
         else regRead off s)
    ∧ (∀ o, o ≠ off → regRead o t = regRead o s)
    ∧ t.mem = s.mem ∧ t.rowOut = s.rowOut ∧ t.cfg = s.cfg

/-- FB_SIZE, FB_BASE and FB_CFG read the configuration, and CMD and unmapped offsets read 0 (10_state R41, 10_state R46, 10_state R49, 47_framebuffer R281). -/
def Obligations.ConfigurationRegistersReadTheirFields : Prop :=
  ∀ s : State, cfgWf s.cfg = true →
    lowField (regRead 0x80 s) = s.cfg.fbCols ∧ highField (regRead 0x80 s) = s.cfg.fbRows
    ∧ (regRead 0x94 s).toNat = s.cfg.fbBase
    ∧ (regRead 0x98 s).extractLsb' 0 3 = fmtCode s.cfg.fbFormat ∧ (regRead 0x98 s).extractLsb' 3 13 = 0
    ∧ ((regRead 0x98 s).extractLsb' 16 16).toNat = bytesPerRow s.cfg
    ∧ (∀ off, (off = 0 ∨ off = 0x1C ∨ (0x34 ≤ off ∧ off ≤ 0x3C) ∨ (0x50 ≤ off ∧ off ≤ 0x5C)
          ∨ (0x70 ≤ off ∧ off ≤ 0x7C) ∨ 0x9C ≤ off) → regRead off s = 0)
    ∧ ∀ off, perform (.regRead off) s = .next { s with readData := regRead off s }

/-- A byte the host writes to PIXMEM reads back, and no other byte changes (20_memory R60, 20_memory R69, 20_memory R70). -/
def Obligations.HostReadsTheByteLastWritten : Prop :=
  ∀ (s : State) (a : Word) (v : Byte), isBacked s.cfg.backed a.toNat = true → ∃ m,
    perform (.memWrite a v) s = .next { s with mem := m }
    ∧ peek s.epoch m a.toNat = v
    ∧ (∀ b, b ≠ a.toNat → peek s.epoch m b = peek s.epoch s.mem b)
    ∧ perform (.memRead a) { s with mem := m } = .next { s with mem := m, readData := v.zeroExtend 32 }

/-- BLIT and BLIT_AT with a tint operator and a fully transparent tint end with OK and change nothing (R162). -/
def Obligations.TransparentTintIsNoOp : Prop :=
  ∀ s : State, accepting s = true → (opField s.ctrl = .tint ∨ opField s.ctrl = .tintLuminance) →
    alpha (tintField s.ctrl) = 0 →
    exec .blit s = .next (endedOk s s.mem) ∧ exec .blitAt s = .next (endedOk s s.mem)

/-- IS_NOOP puts 1 in RES0 exactly for a tint operator with a fully transparent tint, and ends with OK (R169). -/
def Obligations.IsNoopAnswersInRes0 : Prop :=
  decode (.cmd 0x00000003) = .ok .isNoop
    ∧ ∀ s : State, accepting s = true → exec .isNoop s = .next { endedOk s s.mem with
        res0 := if (opField s.ctrl = .tint ∨ opField s.ctrl = .tintLuminance) ∧ alpha (tintField s.ctrl) = 0
          then 1 else 0 }

/-- A tint that reduces to neither black nor white ends a BLIT to a Mono1 destination with OK and no change (R165). -/
def Obligations.TintNeitherBlackNorWhite : Prop :=
  (∀ (lib : ColorLib) (op : CompOp) (a : BlitArgs) (s : State), a.dst.format = .mono1 →
      (op = .tint ∨ op = .tintLuminance) → lib.equal (lib.getBw a.tint) 0xC0 = false →
      lib.equal (lib.getBw a.tint) 0xFF = false → blitTiled lib op a s = .next (endedOk s s.mem))
    ∧ ∀ s : State, accepting s = true →
      exec .blit s = blitTiled engineLib (opField s.ctrl) (blitArgs s) s
        ∧ exec .blitAt s = blitTiled engineLib (opField s.ctrl) (blitAtArgs s) s

/-- On a Mono1 destination a tint that reduces to black becomes And, else one that reduces to white Set; other BLITs keep their operator (41_dispatch R164). -/
def Obligations.BlackTintIsAndWhiteTintIsSet : Prop :=
  ∀ lib : ColorLib,
    (∀ op tint, op = .tint ∨ op = .tintLuminance →
      (lib.equal (lib.getBw tint) 0xC0 = true → normalise lib .mono1 op tint = some (.and, lib.getBw tint))
      ∧ (lib.equal (lib.getBw tint) 0xC0 = false → lib.equal (lib.getBw tint) 0xFF = true →
          normalise lib .mono1 op tint = some (.set, lib.getBw tint)))
    ∧ (LawfulLibrary lib → ∀ op, op = .tint ∨ op = .tintLuminance →
      normalise lib .mono1 op 0xC0 = some (.and, 0xC0) ∧ normalise lib .mono1 op 0xFF = some (.set, 0xFF))
    ∧ ∀ d op tint, d ≠ .mono1 ∨ (op ≠ .tint ∧ op ≠ .tintLuminance) → normalise lib d op tint = some (op, tint)

/-- A BLIT that is no no-op does exactly what the row of its normalised dispatch key does (30_encoding R104, 41_dispatch R160, 41_dispatch R164). -/
def Obligations.BlitRunsTheRowOfItsKey : Prop :=
  ∀ (s : State) (op : CompOp) (t : Color) (i : Instr),
    isNoopTint (opField s.ctrl) (tintField s.ctrl) = false →
    normalise engineLib (formatField s.dstFmt) (opField s.ctrl) (tintField s.ctrl) = some (op, t) →
    decode (keyPacket op (formatField s.dstFmt) (formatField s.srcFmt)) = .ok i → exec .blit s = exec i s

/-- A BLIT whose checks pass and whose rows can be walked ends with OK, and writes only bytes of visited pixels (41_dispatch R161, 41_dispatch R170, 20_memory R78, 47_framebuffer R298). -/
def Obligations.BlitRunsToItsEnd : Prop :=
  ∀ (s : State) (op : CompOp) (t : Color), accepting s = true →
    isNoopTint (opField s.ctrl) (tintField s.ctrl) = false →
    normalise engineLib (formatField s.dstFmt) (opField s.ctrl) (tintField s.ctrl) = some (op, t) →
    entryPasses op (blitArgs s) = true → runs s (blitArgs s) = true →
    ∃ m, exec .blit s = .next (endedOk s m)
      ∧ ∀ b, (∀ p ∈ visited s (blitArgs s), b ∉ dstBytes (blitArgs s).dst p) →
          peek s.epoch m b = peek s.epoch s.mem b

/-- A BLIT_AT whose checks pass and whose rows can be walked ends with OK, and writes only bytes of visited pixels (41_dispatch R168, 41_dispatch R170, 20_memory R78, 47_framebuffer R298). -/
def Obligations.BlitAtRunsToItsEnd : Prop :=
  ∀ (s : State) (op : CompOp) (t : Color), accepting s = true →
    isNoopTint (opField s.ctrl) (tintField s.ctrl) = false →
    normalise engineLib (formatField s.dstFmt) (opField s.ctrl) (tintField s.ctrl) = some (op, t) →
    entryPasses op (blitAtArgs s) = true → runs s (blitAtArgs s) = true →
    ∃ m, exec .blitAt s = .next (endedOk s m)
      ∧ ∀ b, (∀ p ∈ visited s (blitAtArgs s), b ∉ dstBytes (blitAtArgs s).dst p) →
          peek s.epoch m b = peek s.epoch s.mem b

/-- BLIT_AT does what BLIT does with the clipped rectangle in RECT and zero in OFFS (41_dispatch R168, 40_primitives R121). -/
def Obligations.BlitAtIsTheClippedBlit : Prop :=
  ∀ s : State,
    let d := rectOf s.dstOrg s.dstSize
    let x0 := max (lowField s.offs) d.x
    let y0 := max (highField s.offs) d.y
    let w := max 0 (min (lowField s.offs + lowField s.srcSize) (d.x + d.w) - x0)
    let h := max 0 (min (highField s.offs + highField s.srcSize) (d.y + d.h) - y0)
    exec .blitAt s =
      match exec .blit { s with rectOrg := packFields x0 y0, rectSize := packFields w h, offs := 0 } with
      | .next t => .next { t with rectOrg := s.rectOrg, rectSize := s.rectSize, offs := s.offs }
      | .fault r => .fault r
      | .refused r => .refused r

/-- A BLIT of a pair outside the fifteen reports code 1 and log bit 1 and reads and writes no byte (R312). -/
def Obligations.UnsupportedPairIsReported : Prop :=
  ∀ s : State, accepting s = true →
    supportedPairs.contains (formatField s.srcFmt, formatField s.dstFmt) = false →
    let ends := if isNoopTint (opField s.ctrl) (tintField s.ctrl)
        ∨ normalise engineLib (formatField s.dstFmt) (opField s.ctrl) (tintField s.ctrl) = none
      then endedOk s s.mem else endedError s 1 0x02
    exec .blit s = .next ends ∧ exec .blitAt s = .next ends

/-- Each of the six UNSUPPORTED_PAIR rows reports code 1 and log bit 1 and changes nothing else (41_dispatch R166, 60_exceptions R312, 30_encoding R105). -/
def Obligations.UnsupportedRowsReportTheirPair : Prop :=
  ∀ (s : State) (op : CompOp) (d f : PixelFormat), accepting s = true →
    ∀ i ∈ [.unsupportedDPalette1 op f, .unsupportedDPalette24 op d f, .unsupportedDReserved op d f,
        .unsupportedMono1FromP4 op, .unsupportedMono1FromC8OrReserved op f, .unsupportedC8FromReserved op d f],
      exec i s = .next (endedError s 1 0x02)

/-- PALM1 and PALC8 with a null palette report code 2, log nothing and change nothing else, aligned or not (60_exceptions R313, 43_palette_to_mono1 R200, 44_palette_to_color8 R220, 41_dispatch R171). -/
def Obligations.MissingPaletteIsReported : Prop :=
  ∀ (s : State) (d f : PixelFormat), accepting s = true → s.srcPal = 0 →
    ∀ i ∈ [.palm1AssignP1, .palm1AssignP2, .palm1AssignInvertedP1, .palm1AssignInvertedP2, .palm1OrP1, .palm1OrP2,
        .palm1AndP1, .palm1AndP2, .palm1ClearP1, .palm1ClearP2, .palm1SetP1, .palm1SetP2, .palm1TintP1,
        .palm1TintP2, .palm1TintLuminanceP1, .palm1TintLuminanceP2,
        .palc8AssignP1 d, .palc8AssignP24 d f, .palc8AssignInvertedP1 d, .palc8AssignInvertedP24 d f,
        .palc8OrP1 d, .palc8OrP24 d f, .palc8AndP1 d, .palc8AndP24 d f, .palc8ClearP1 d, .palc8ClearP24 d f,
        .palc8SetP1 d, .palc8SetP24 d f, .palc8TintP1 d, .palc8TintP24 d f, .palc8TintLuminanceP1 d,
        .palc8TintLuminanceP24 d f],
      exec i s = .next (endedError s 2 0)

/-- A Mono1 bitmap whose address or stride is no multiple of 4 halts M1M1, PALM1 and M1C8 before any access (20_memory R68, 60_exceptions R318, 60_exceptions R319). -/
def Obligations.MisalignedMono1Halts : Prop :=
  ∀ (s : State) (d : PixelFormat), accepting s = true →
    let badSrc := s.srcAddr.toNat % 4 ≠ 0 ∨ strideField s.srcFmt % 4 ≠ 0
    let badDst := s.dstAddr.toNat % 4 ≠ 0 ∨ strideField s.dstFmt % 4 ≠ 0
    (badSrc ∨ badDst → ∀ i ∈ [.m1m1Assign, .m1m1AssignInverted, .m1m1Or, .m1m1And, .m1m1Clear, .m1m1Set],
      exec i s = .next (endedHalt s s.mem 2))
    ∧ (badDst → s.srcPal ≠ 0 → ∀ i ∈ [.palm1AssignP1, .palm1AssignP2, .palm1AssignInvertedP1,
        .palm1AssignInvertedP2, .palm1OrP1, .palm1OrP2, .palm1AndP1, .palm1AndP2, .palm1ClearP1, .palm1ClearP2,
        .palm1SetP1, .palm1SetP2, .palm1TintP1, .palm1TintP2, .palm1TintLuminanceP1, .palm1TintLuminanceP2],
      exec i s = .next (endedHalt s s.mem 2))
    ∧ (badSrc → ∀ i ∈ [.m1c8Assign d, .m1c8AssignInverted d, .m1c8Or d, .m1c8And d, .m1c8Clear d, .m1c8Set d,
        .m1c8Tint d, .m1c8TintLuminance d],
      exec i s = .next (endedHalt s s.mem 2))

/-- A BLIT that reaches its last row visits exactly the rectangle's pixels inside the row windows, in reading order (40_primitives R143, 40_primitives R145, 40_primitives R146, 40_primitives R147, 00_scope R15). -/
def Obligations.VisitedPixelsAreTheWindowedRectangle : Prop :=
  ∀ (tab : List RowEntry) (a : BlitArgs), (blitPlan tab a).stop = none →
    (a.dst.format = .mono1 ∨ a.dst.format.isEightBit = true) →
    let px := (blitPlan tab a).pixels
    (∀ x y, (∃ p ∈ px, p.dx = x ∧ p.dy = y) ↔ inRect a.rect x y = true ∧ inWindow tab a.dst x y = true
        ∧ (a.src.format = .color8Circular → inWindow tab a.src (srcX a x) (srcY a y) = true))
    ∧ (∀ p ∈ px, p.sx = a.src.bounds.x + (a.off.x + (p.dx - a.rect.x)) % a.src.bounds.w
        ∧ p.sy = a.src.bounds.y + (a.off.y + (p.dy - a.rect.y)) % a.src.bounds.h
        ∧ (a.dst.format ≠ .mono1 → p.dstPtr + p.dx = colorByte tab a.dst p.dx p.dy)
        ∧ (a.src.format.isEightBit = true → p.srcPtr + p.sx = colorByte tab a.src p.sx p.sy))
    ∧ px.Pairwise fun p q => p.dy < q.dy ∨ (p.dy = q.dy ∧ p.dx < q.dx)

/-- Under the caller's obligations, and with every row of a circular bitmap in the table, no BLIT stops before its last row (70_reset R346, 40_primitives R142, 41_dispatch R167). -/
def Obligations.ContractKeepsTheWalkGoing : Prop :=
  ∀ (tab : List RowEntry) (a : BlitArgs), contract a = true → rowsInTable tab a.src = true →
    rowsInTable tab a.dst = true → (blitPlan tab a).stop = none

/-- Under the contract a walk halts exactly at its first row that a circular source or destination lacks, and the rows above are visited whole (40_primitives R142, 41_dispatch R171, 45_color8_to_color8 R242, 60_exceptions R319, 60_exceptions R320, 46_mono1_to_color8 R273). -/
def Obligations.CircularRowOutsideTheTableStopsTheWalk : Prop :=
  ∀ (tab : List RowEntry) (a : BlitArgs), contract a = true →
    (a.dst.format = .mono1 ∨ a.dst.format.isEightBit = true) →
    let known := fun y => rowKnown tab a.dst y = true ∧ rowKnown tab a.src (srcY a y) = true
    ((blitPlan tab a).stop = some (.fatal .rowIndexOutOfBounds)
      ↔ 0 < a.rect.w ∧ ∃ y, a.rect.y ≤ y ∧ y < maxY a.rect ∧ ¬ known y)
    ∧ (a.dst.format = .color8Circular → a.src.format ≠ .color8Circular →
      ((blitPlan tab a).stop = some (.fatal .rowIndexOutOfBounds)
        ↔ 0 < a.rect.w ∧ 0 < a.rect.h ∧ (tab.length : Int) < maxY a.rect))
    ∧ ∀ x y, (∃ p ∈ (blitPlan tab a).pixels, p.dx = x ∧ p.dy = y) ↔ inRect a.rect x y = true
        ∧ inWindow tab a.dst x y = true
        ∧ (a.src.format = .color8Circular → inWindow tab a.src (srcX a x) (srcY a y) = true)
        ∧ ∀ z, a.rect.y ≤ z → z ≤ y → known z

/-- A BLIT visits at most max(0, rect.h) times max(0, rect.w) pixels; with an empty rectangle it visits none and ends with OK (70_reset R356, 70_reset R355, 41_dispatch R161). -/
def Obligations.VisitsAreBoundedByTheRectangle : Prop :=
  (∀ (tab : List RowEntry) (a : BlitArgs),
      (blitPlan tab a).pixels.length ≤ a.rect.h.toNat * a.rect.w.toNat)
    ∧ ∀ (s : State) (i : Instr) (a : BlitArgs) (op : CompOp) (t : Color), accepting s = true →
      (i = .blit ∧ a = blitArgs s) ∨ (i = .blitAt ∧ a = blitAtArgs s) →
      isNoopTint (opField s.ctrl) (tintField s.ctrl) = false →
      normalise engineLib a.dst.format (opField s.ctrl) (tintField s.ctrl) = some (op, t) →
      entryPasses .assign a = true → backedBytes s (paletteBytes a.src) = true →
      a.rect.w ≤ 0 ∨ a.rect.h ≤ 0 → exec i s = .next (endedOk s s.mem)

/-- The six M1M1 rows give each visited destination bit its operator's value and keep every other bit (R181). -/
def Obligations.Mono1RowsWriteTheirBits : Prop :=
  ∀ s : State, let a := rowArgs s .mono1 .mono1
    accepting s = true → isAligned a.src = true → isAligned a.dst = true → runs s a = true →
    paintsBits .m1m1Assign a (fun p _ => monoPixel s a.src p.sx p.sy) s
    ∧ paintsBits .m1m1AssignInverted a (fun p _ => !monoPixel s a.src p.sx p.sy) s
    ∧ paintsBits .m1m1Or a (fun p d => d || monoPixel s a.src p.sx p.sy) s
    ∧ paintsBits .m1m1And a (fun p d => d && monoPixel s a.src p.sx p.sy) s
    ∧ paintsBits .m1m1Clear a (fun p d => d && !monoPixel s a.src p.sx p.sy) s
    ∧ paintsBits .m1m1Set a (fun p d => d || !monoPixel s a.src p.sx p.sy) s

/-- The word procedure of M1M1, unit by unit with rotation and masks, leaves the same bytes as the pixel statement (42_mono1_to_mono1 R181, 42_mono1_to_mono1 R190, 42_mono1_to_mono1 R192). -/
def Obligations.WordProcedureAgreesWithPixels : Prop :=
  ∀ s : State, let a := rowArgs s .mono1 .mono1
    accepting s = true → isAligned a.src = true → isAligned a.dst = true → runs s a = true →
    ∀ c ∈ ([(.m1m1Assign, m1m1AssignForm), (.m1m1AssignInverted, m1m1AssignInvertedForm), (.m1m1Or, m1m1OrForm),
        (.m1m1And, m1m1AndForm), (.m1m1Clear, m1m1ClearForm), (.m1m1Set, m1m1SetForm)] : List (Instr × WordForm)),
      ∃ m m', m1m1Words c.2 (pixEnv s) a s.mem = .ok m ∧ exec c.1 s = .next (endedOk s m')
        ∧ ∀ b, peek s.epoch m b = peek s.epoch m' b

/-- M1M1.Tint and M1M1.TintLuminance are refused, and no BLIT reaches them (R189). -/
def Obligations.Mono1TintRowsHaveNoForm : Prop :=
  (∀ s : State, exec .m1m1Tint s = .refused .noMono1TintForm ∧ exec .m1m1TintLuminance s = .refused .noMono1TintForm)
    ∧ ∀ (lib : ColorLib) (op op' : CompOp) (tint t : Color), normalise lib .mono1 op tint = some (op', t) →
        op' ≠ .tint ∧ op' ≠ .tintLuminance

/-- The permitted PALM1 rows give each visited bit the dithered grey of its recoloured palette entry, transparent entries none (43_palette_to_mono1 R202, 43_palette_to_mono1 R203, 43_palette_to_mono1 R204, 43_palette_to_mono1 R205, 43_palette_to_mono1 R206, 43_palette_to_mono1 R207, 43_palette_to_mono1 R208, 43_palette_to_mono1 R212). -/
def Obligations.PaletteRowsDitherTheirBits : Prop :=
  ∀ s : State, accepting s = true → s.srcPal ≠ 0 →
    ∀ c ∈ ([(.palm1AssignP1, .palette1, .assign), (.palm1AssignP2, .palette2, .assign),
        (.palm1SetP1, .palette1, .set), (.palm1SetP2, .palette2, .set),
        (.palm1TintP1, .palette1, .tint), (.palm1TintP2, .palette2, .tint),
        (.palm1TintLuminanceP1, .palette1, .tintLuminance), (.palm1TintLuminanceP2, .palette2, .tintLuminance)]
        : List (Instr × PixelFormat × CompOp)),
      let a := rowArgs s .mono1 c.2.1
      isAligned a.dst = true → runs s a = true →
      paintsBits c.1 a (fun p d => greyedBit engineLib c.2.2 a.tint (palettePixel s a.src p.sx p.sy) p.dx p.dy d) s

/-- PALM1 with AssignInverted, Or, And or Clear reports code 3 at its first visited pixel, or OK when it visits none (43_palette_to_mono1 R201, 43_palette_to_mono1 R210, 60_exceptions R314). -/
def Obligations.RejectedPaletteToMono1RowsReport : Prop :=
  ∀ s : State, accepting s = true → s.srcPal ≠ 0 →
    ∀ c ∈ ([(.palm1AssignInvertedP1, .palette1), (.palm1AssignInvertedP2, .palette2), (.palm1OrP1, .palette1),
        (.palm1OrP2, .palette2), (.palm1AndP1, .palette1), (.palm1AndP2, .palette2), (.palm1ClearP1, .palette1),
        (.palm1ClearP2, .palette2)] : List (Instr × PixelFormat)),
      let a := rowArgs s .mono1 c.2
      isAligned a.dst = true → readable s a = true →
      (visited s a ≠ [] → exec c.1 s = .next (endedError s 3 0x08))
      ∧ (visited s a = [] → (blitPlan s.cfg.rowtab a).stop = none → exec c.1 s = .next (endedOk s s.mem))

/-- The permitted PALC8 rows give each visited byte the palette colour, copied, blended or tinted (44_palette_to_color8 R221, 44_palette_to_color8 R222, 44_palette_to_color8 R223, 44_palette_to_color8 R224, 44_palette_to_color8 R225, 44_palette_to_color8 R227). -/
def Obligations.PaletteRowsCombineTheirBytes : Prop :=
  ∀ (s : State) (d f : PixelFormat), d.isEightBit = true → f.isPalette24 = true → accepting s = true → s.srcPal ≠ 0 →
    ∀ c ∈ ([(.palc8AssignP1 d, .palette1, .assign), (.palc8AssignP24 d f, f, .assign),
        (.palc8SetP1 d, .palette1, .set), (.palc8SetP24 d f, f, .set),
        (.palc8TintP1 d, .palette1, .tint), (.palc8TintP24 d f, f, .tint),
        (.palc8TintLuminanceP1 d, .palette1, .tintLuminance), (.palc8TintLuminanceP24 d f, f, .tintLuminance)]
        : List (Instr × PixelFormat × CompOp)),
      let a := rowArgs s d c.2.1
      runs s a = true →
      paintsBytes c.1 a (fun p d => combinedByte engineLib c.2.2 a.tint (palettePixel s a.src p.sx p.sy) d) s

/-- PALC8 with AssignInverted, Or, And or Clear reports code 3 at its first visited pixel; visiting none, it ends with OK or the row-index halt (44_palette_to_color8 R222, 44_palette_to_color8 R228, 60_exceptions R314, 60_exceptions R320). -/
def Obligations.RejectedPaletteToColor8RowsReport : Prop :=
  ∀ (s : State) (d f : PixelFormat), d.isEightBit = true → f.isPalette24 = true → accepting s = true → s.srcPal ≠ 0 →
    ∀ c ∈ ([(.palc8AssignInvertedP1 d, .palette1), (.palc8AssignInvertedP24 d f, f), (.palc8OrP1 d, .palette1),
        (.palc8OrP24 d f, f), (.palc8AndP1 d, .palette1), (.palc8AndP24 d f, f), (.palc8ClearP1 d, .palette1),
        (.palc8ClearP24 d f, f)] : List (Instr × PixelFormat)),
      let a := rowArgs s d c.2
      readable s a = true →
      (visited s a ≠ [] → exec c.1 s = .next (endedError s 3 0x08))
      ∧ (visited s a = [] → (blitPlan s.cfg.rowtab a).stop = none → exec c.1 s = .next (endedOk s s.mem))
      ∧ (visited s a = [] → (blitPlan s.cfg.rowtab a).stop = some (.fatal .rowIndexOutOfBounds) →
          exec c.1 s = .next (endedHalt s s.mem 1))

/-- The eight C8C8 rows copy each visited, not skipped byte for five operators and blend it for three (45_color8_to_color8 R241, 45_color8_to_color8 R242, 45_color8_to_color8 R243, 45_color8_to_color8 R244, 45_color8_to_color8 R245, 45_color8_to_color8 R246, 45_color8_to_color8 R247, 45_color8_to_color8 R248, 45_color8_to_color8 R249, 45_color8_to_color8 R250, 45_color8_to_color8 R251). -/
def Obligations.Color8RowsCopyOrBlendTheirBytes : Prop :=
  ∀ (s : State) (d f : PixelFormat), d.isEightBit = true → f.isEightBit = true → accepting s = true →
    let a := rowArgs s d f
    runs s a = true →
    ∀ c ∈ ([(.c8c8Assign d f, .assign), (.c8c8AssignInverted d f, .assignInverted), (.c8c8Or d f, .or),
        (.c8c8And d f, .and), (.c8c8Clear d f, .clear), (.c8c8Set d f, .set), (.c8c8Tint d f, .tint),
        (.c8c8TintLuminance d f, .tintLuminance)] : List (Instr × CompOp)),
      paintsBytes c.1 a (fun p d => combinedByte engineLib c.2 a.tint (colorPixel s a.src p.sx p.sy) d) s

/-- The eight M1C8 rows write white, black or the tint, or leave the byte, as the table of expand8 says for each bit (46_mono1_to_color8 R261, 46_mono1_to_color8 R262, 46_mono1_to_color8 R263, 46_mono1_to_color8 R264, 46_mono1_to_color8 R265, 46_mono1_to_color8 R266, 46_mono1_to_color8 R267, 46_mono1_to_color8 R268, 46_mono1_to_color8 R269, 46_mono1_to_color8 R270). -/
def Obligations.Mono1RowsExpandTheirBytes : Prop :=
  ∀ (s : State) (d : PixelFormat), d.isEightBit = true → accepting s = true →
    let a := rowArgs s d .mono1
    isAligned a.src = true → runs s a = true →
    ∀ c ∈ ([(.m1c8Assign d, .assign), (.m1c8AssignInverted d, .assignInverted), (.m1c8Or d, .or), (.m1c8And d, .and),
        (.m1c8Clear d, .clear), (.m1c8Set d, .set), (.m1c8Tint d, .tint), (.m1c8TintLuminance d, .tintLuminance)]
        : List (Instr × CompOp)),
      paintsBytes c.1 a (fun p d => expandedByte c.2 a.tint (monoPixel s a.src p.sx p.sy) d) s

/-- A circular row outside the table halts PALC8, C8C8 and M1C8 with cause 1, the rows above it painted (40_primitives R142, 60_exceptions R318, 60_exceptions R319, 60_exceptions R323). -/
def Obligations.RowIndexHaltKeepsTheRowsAbove : Prop :=
  ∀ (s : State) (d : PixelFormat), d.isEightBit = true → accepting s = true →
    (∀ f, isPaletteFormat f = true → s.srcPal ≠ 0 → runsOffTable s (rowArgs s d f) = true →
      ∀ c ∈ ([(.assign, if f = .palette1 then .palc8AssignP1 d else .palc8AssignP24 d f),
          (.set, if f = .palette1 then .palc8SetP1 d else .palc8SetP24 d f),
          (.tint, if f = .palette1 then .palc8TintP1 d else .palc8TintP24 d f),
          (.tintLuminance, if f = .palette1 then .palc8TintLuminanceP1 d else .palc8TintLuminanceP24 d f)]
          : List (CompOp × Instr)),
        haltsAfterBytes c.2 (rowArgs s d f)
          (fun p v => combinedByte engineLib c.1 (tintField s.ctrl) (palettePixel s (rowArgs s d f).src p.sx p.sy) v) s)
    ∧ (∀ f, f.isEightBit = true → runsOffTable s (rowArgs s d f) = true →
      ∀ c ∈ ([(.assign, .c8c8Assign d f), (.assignInverted, .c8c8AssignInverted d f), (.or, .c8c8Or d f),
          (.and, .c8c8And d f), (.clear, .c8c8Clear d f), (.set, .c8c8Set d f), (.tint, .c8c8Tint d f),
          (.tintLuminance, .c8c8TintLuminance d f)] : List (CompOp × Instr)),
        haltsAfterBytes c.2 (rowArgs s d f)
          (fun p v => combinedByte engineLib c.1 (tintField s.ctrl) (colorPixel s (rowArgs s d f).src p.sx p.sy) v) s)
    ∧ (isAligned (rowArgs s d .mono1).src = true → runsOffTable s (rowArgs s d .mono1) = true →
      ∀ c ∈ ([(.assign, .m1c8Assign d), (.assignInverted, .m1c8AssignInverted d), (.or, .m1c8Or d),
          (.and, .m1c8And d), (.clear, .m1c8Clear d), (.set, .m1c8Set d), (.tint, .m1c8Tint d),
          (.tintLuminance, .m1c8TintLuminance d)] : List (CompOp × Instr)),
        haltsAfterBytes c.2 (rowArgs s d .mono1)
          (fun p v => expandedByte c.1 (tintField s.ctrl) (monoPixel s (rowArgs s d .mono1).src p.sx p.sy) v) s)

/-- A BLIT writes only words or bytes of visited pixels, changes only visited bits of a word; FB_CLEAR exactly its own bytes; no other command any (R78). -/
def Obligations.OnlyVisitedPixelsAreWritten : Prop :=
  (∀ (s t : State) (i : Instr) (a : BlitArgs),
      (i = .blit ∧ a = blitArgs s) ∨ (i = .blitAt ∧ a = blitAtArgs s) → exec i s = .next t →
      (∀ b, (∀ p ∈ visited s a, b ∉ dstBytes a.dst p) → peek s.epoch t.mem b = peek s.epoch s.mem b)
      ∧ (a.dst.format = .mono1 → ∀ b k, k < 8 →
          (∀ p ∈ visited s a, pixAddr (monoByte a.dst p.dx p.dy) ≠ b ∨ (p.dx % 8).toNat ≠ k) →
          (peek s.epoch t.mem b).getLsbD k = (peek s.epoch s.mem b).getLsbD k))
    ∧ (∀ s t : State, cfgWf s.cfg = true → exec .fbClear s = .next t →
        ∀ b, (∀ i, i < sizeBytes s.cfg → b ≠ s.cfg.fbBase + i) → memGet t.mem b = memGet s.mem b)
    ∧ (∀ s t : State, accepting s = true → cfgWf s.cfg = true → exec .fbClear s = .next t →
        ∀ i, i < sizeBytes s.cfg → memGet t.mem (s.cfg.fbBase + i) = some 0xFF)
    ∧ ∀ (s t : State), ∀ i ∈ [.isNoop, .fbMarkDirty, .fbGetRow, .fbSizeBytes, .fbHasNextRow, .fbNextRow, .fbResetDirty],
        exec i s = .next t → t.mem = s.mem

/-- A BLIT changes no register but STATUS and ERRLOG, and never the dirty state (41_dispatch R161, 47_framebuffer R298, 10_state R50, 60_exceptions R311). -/
def Obligations.BlitTouchesNoOtherRegister : Prop :=
  ∀ (s t : State) (i : Instr), i = .blit ∨ i = .blitAt → exec i s = .next t →
    t = { s with mem := t.mem, status := t.status, errlog := t.errlog }
    ∧ (t.errlog = s.errlog ∨ t.errlog = s.errlog ||| 0x02 ∨ t.errlog = s.errlog ||| 0x08)

/-- A BLIT that ends with one of the three errors leaves every byte of PIXMEM as it was (60_exceptions R312, 60_exceptions R313, 60_exceptions R314, 60_exceptions R323). -/
def Obligations.ErrorsLeavePixmemUnchanged : Prop :=
  ∀ (s t : State) (i : Instr), i = .blit ∨ i = .blitAt → accepting s = true → exec i s = .next t →
    accepting t = true → t.status.extractLsb' 0 4 ≠ 0 → t.mem = s.mem

/-- A BLIT with Assign issued twice leaves the buffer the first one left, for every pair of formats (20_memory R69, 42_mono1_to_mono1 R183, 20_memory R72). -/
def Obligations.AssignIsIdempotent : Prop :=
  ∀ s t : State, opField s.ctrl = .assign → exec .blit s = .next t →
    ∃ u, exec .blit t = .next u ∧ ∀ b, peek s.epoch u.mem b = peek s.epoch t.mem b

/-- A 1 by 1 source composited with Assign gives every pixel of the rectangle its value, in Color8 and in Mono1 (40_primitives R149, 40_primitives R145, 40_primitives R146). -/
def Obligations.OnePixelSourceFillsTheRectangle : Prop :=
  ∀ s : State, accepting s = true →
    (let a := rowArgs s .color8 .color8;
      contract a = true → a.src.bounds.w = 1 → a.src.bounds.h = 1 → a.off = ⟨0, 0⟩ → touchable s a = true →
      ∃ t, exec (.c8c8Assign .color8 .color8) s = .next t
        ∧ ∀ x y, inRect a.rect x y = true →
            colorPixel t a.dst x y = colorPixel s a.src a.src.bounds.x a.src.bounds.y)
    ∧ (let a := rowArgs s .mono1 .mono1;
      contract a = true → a.src.bounds.w = 1 → a.src.bounds.h = 1 → a.off = ⟨0, 0⟩ → touchable s a = true →
      isAligned a.src = true → isAligned a.dst = true →
      ∃ t, exec .m1m1Assign s = .next t
        ∧ ∀ x y, inRect a.rect x y = true →
            monoPixel t a.dst x y = monoPixel s a.src a.src.bounds.x a.src.bounds.y)

/-- A BLIT issued directly after reset ends with OK and changes nothing (70_reset R344). -/
def Obligations.BlitRightAfterResetIsDefined : Prop :=
  exec .blit State.reset = .next State.reset

/-- A BLIT whose source or palette bytes meet its destination bytes is refused by name (20_memory R72, 93_implementation_defined U5). -/
def Obligations.OverlapIsRefused : Prop :=
  ∀ (s : State) (i : Instr) (a : BlitArgs) (op : CompOp) (t : Color), accepting s = true →
    (i = .blit ∧ a = blitArgs s) ∨ (i = .blitAt ∧ a = blitAtArgs s) →
    isNoopTint (opField s.ctrl) (tintField s.ctrl) = false →
    normalise engineLib a.dst.format (opField s.ctrl) (tintField s.ctrl) = some (op, t) →
    entryPasses op a = true → backedBytes s (paletteBytes a.src) = true →
    (∃ q ∈ visited s a, ∃ b ∈ dstBytes a.dst q, b ∈ paletteBytes a.src ∨ ∃ p ∈ visited s a, b ∈ srcBytes a.src p) →
    exec i s = .refused .sourceMeetsDestination

/-- A BLIT that would visit a pixel against the caller's obligations is refused by the name of the obligation (70_reset R346, 41_dispatch R167, 40_primitives R145, 40_primitives R146, 40_primitives R148, 93_implementation_defined U3, 93_implementation_defined U4, 93_implementation_defined U6). -/
def Obligations.BrokenContractIsRefused : Prop :=
  ∀ (s : State) (i : Instr) (a : BlitArgs) (op : CompOp) (t : Color) (x y : Int), accepting s = true →
    (i = .blit ∧ a = blitArgs s) ∨ (i = .blitAt ∧ a = blitAtArgs s) →
    isNoopTint (opField s.ctrl) (tintField s.ctrl) = false →
    normalise engineLib a.dst.format (opField s.ctrl) (tintField s.ctrl) = some (op, t) →
    entryPasses op a = true → touchable s a = true →
    inRect a.rect x y = true → inWindow s.cfg.rowtab a.dst x y = true →
    (∀ z, a.rect.y ≤ z → z ≤ y → rowChecksPass s.cfg.rowtab a z = true) →
    negativeOperands a = true ∨ offsetMisses a = true ∨ inRect a.dst.bounds x y = false →
    exec i s = .refused (if negativeOperands a then .negativeCoordinates
      else if offsetMisses a then .offsetOutsideSource else .rectOutsideDestination)

/-- An unbacked byte of the palette, source or destination at a BLIT's first pixel, or of a host access, is a fault that names its address (20_memory R60, 20_memory R71, 93_implementation_defined U11). -/
def Obligations.UnbackedAccessFaults : Prop :=
  (∀ (s : State) (i : Instr) (a : BlitArgs) (op : CompOp) (t : Color) (b : Nat), accepting s = true →
      (i = .blit ∧ a = blitArgs s) ∨ (i = .blitAt ∧ a = blitAtArgs s) →
      isNoopTint (opField s.ctrl) (tintField s.ctrl) = false →
      normalise engineLib a.dst.format (opField s.ctrl) (tintField s.ctrl) = some (op, t) →
      entryPasses op a = true →
      (a.dst.format = .mono1 → firstUnbacked s (paletteBytes a.src) = some b → exec i s = .fault (.notBacked b))
      ∧ ∀ (p : Px) (rest : List Px), footprintsMeet a (visited s a) = false → visited s a = p :: rest →
        (a.dst.format = .mono1 → backedBytes s (paletteBytes a.src) = true) →
        (firstUnbacked s (srcBytes a.src p) = some b → exec i s = .fault (.notBacked b))
        ∧ (backedBytes s (srcBytes a.src p) = true → isPaletteFormat a.src.format = true →
            b = pixAddr (a.src.palette + indexPixel s a.src p.sx p.sy) → isBacked s.cfg.backed b = false →
            exec i s = .fault (.notBacked b))
        ∧ (backedBytes s (srcBytes a.src p) = true → backedBytes s (paletteBytes a.src) = true →
            (a.src.format = .mono1 → a.dst.format ≠ .mono1 → op = .assign ∨ op = .assignInverted) →
            firstUnbacked s (dstBytes a.dst p) = some b → exec i s = .fault (.notBacked b)))
    ∧ (∀ (s : State) (d f : PixelFormat) (p : Px) (rest : List Px), d.isEightBit = true → f.isEightBit = true →
      accepting s = true →
      let a := rowArgs s d f
      footprintsMeet a (visited s a) = false → visited s a = p :: rest →
      isBacked s.cfg.backed (pixAddr (colorByte s.cfg.rowtab a.src p.sx p.sy)) = false →
      ∀ i ∈ [.c8c8Assign d f, .c8c8AssignInverted d f, .c8c8Or d f, .c8c8And d f, .c8c8Clear d f, .c8c8Set d f,
          .c8c8Tint d f, .c8c8TintLuminance d f],
        exec i s = .fault (.notBacked (pixAddr (colorByte s.cfg.rowtab a.src p.sx p.sy))))
    ∧ ∀ (s : State) (x : Word) (v : Byte), isBacked s.cfg.backed x.toNat = false →
        perform (.memWrite x v) s = .fault (.notBacked x.toNat) ∧ perform (.memRead x) s = .fault (.notBacked x.toNat)

/-- The engine's colour library obeys laws L1 to L6, and so does the reference library (R131). -/
def Obligations.EngineLibraryObeysTheLaws : Prop :=
  LawfulLibrary engineLib ∧ LawfulLibrary refColorLib

/-- Building the laws in changes no library that obeys them, so the opaque engine library may be any lawful one (40_primitives R130, 40_primitives R131). -/
def Obligations.EveryLawfulLibraryIsCovered : Prop :=
  ∀ lib : ColorLib, LawfulLibrary lib → lawfulLib lib = lib

/-- FB_CLEAR sets every byte the framebuffer owns to 0xFF and marks the whole bounds dirty (R284). -/
def Obligations.ClearFillsTheFramebuffer : Prop :=
  decode (.cmd 0x00000010) = .ok .fbClear
    ∧ ∀ s : State, accepting s = true → cfgWf s.cfg = true → ∃ m,
        exec .fbClear s = .next { endedOk s m with
          fbDirtyOrg := 0, fbDirtySize := BitVec.ofNat 32 (s.cfg.fbRows * 65536 + s.cfg.fbCols), fbFlags := 1 }
        ∧ (∀ i, i < sizeBytes s.cfg → peek s.epoch m (s.cfg.fbBase + i) = 0xFF)
        ∧ ∀ b, (∀ i, i < sizeBytes s.cfg → b ≠ s.cfg.fbBase + i) → peek s.epoch m b = peek s.epoch s.mem b

/-- FB_MARK_DIRTY makes the rectangle, or its union with the dirty one, clipped to the bounds, the dirty rectangle (R286). -/
def Obligations.MarkDirtyClipsTheUnion : Prop :=
  decode (.cmd 0x00000011) = .ok .fbMarkDirty
    ∧ ∀ s : State, accepting s = true → cfgWf s.cfg = true → ∃ org size,
        exec .fbMarkDirty s = .next { endedOk s s.mem with fbDirtyOrg := org, fbDirtySize := size, fbFlags := 1 }
        ∧ rectOf org size = clipRect
            (if isDirtyFlag s.fbFlags then unionRect (dirtyRect s) (rectOf s.rectOrg s.rectSize)
              else rectOf s.rectOrg s.rectSize)
            ⟨0, 0, s.cfg.fbCols, s.cfg.fbRows⟩

/-- After any marks of non-empty rectangles on a Clean framebuffer the dirty rectangle is their bounding box, clipped once (47_framebuffer R287, 40_primitives R121, 40_primitives R122). -/
def Obligations.DirtyRectangleIsTheClippedBoundingBox : Prop :=
  ∀ (s : State) (o z : Word) (rest : List (Word × Word)), accepting s = true → cfgWf s.cfg = true →
    isDirtyFlag s.fbFlags = false →
    (∀ r ∈ (o, z) :: rest, 0 < (rectOf r.1 r.2).w ∧ 0 < (rectOf r.1 r.2).h) →
    ∃ t, markAll ((o, z) :: rest) s = .next t
      ∧ dirtyRect t = clipRect (rest.foldl (fun d r => unionRect d (rectOf r.1 r.2)) (rectOf o z))
          ⟨0, 0, s.cfg.fbCols, s.cfg.fbRows⟩
      ∧ t.fbFlags = 1
      ∧ t = { endedOk s s.mem with
          rectOrg := t.rectOrg
          rectSize := t.rectSize
          fbDirtyOrg := t.fbDirtyOrg
          fbDirtySize := t.fbDirtySize
          fbFlags := 1 }

/-- FB_GET_ROW returns a row's address and window, and halts with cause 1 on a row outside the framebuffer (R288). -/
def Obligations.GetRowReturnsTheDescriptor : Prop :=
  decode (.cmd 0x00000012) = .ok .fbGetRow
    ∧ ∀ s : State, accepting s = true → cfgWf s.cfg = true →
        let y := lowField s.arg0
        (y < 0 ∨ (s.cfg.fbRows : Int) ≤ y → exec .fbGetRow s = .next (endedHalt s s.mem 1))
        ∧ (0 ≤ y → y < s.cfg.fbRows → s.cfg.fbFormat ≠ .color8Circular →
            exec .fbGetRow s = .next { endedOk s s.mem with
              res0 := BitVec.ofNat 32 (s.cfg.fbBase + y.toNat * bytesPerRow s.cfg),
              res1 := BitVec.ofNat 32 ((s.cfg.fbCols - 1) * 65536) })
        ∧ (0 ≤ y → y < s.cfg.fbRows → s.cfg.fbFormat = .color8Circular → ∃ e, s.cfg.rowtab[y.toNat]? = some e
            ∧ exec .fbGetRow s = .next { endedOk s s.mem with
                res0 := BitVec.ofInt 32 (s.cfg.fbBase + e.offset),
                res1 := BitVec.ofNat 32 (e.maxX * 65536 + e.minX) })

/-- FB_SIZE_BYTES returns bytes per row times rows, or for a circular framebuffer the end of its last packed row (47_framebuffer R281, 47_framebuffer R282, 47_framebuffer R290, 10_state R45). -/
def Obligations.SizeBytesReturnsTheOwnedBytes : Prop :=
  ∀ s : State, accepting s = true → cfgWf s.cfg = true → ∃ n : Nat,
    exec .fbSizeBytes s = .next { endedOk s s.mem with res0 := BitVec.ofNat 32 n } ∧ n < 4294967296
    ∧ (s.cfg.fbFormat = .mono1 → n = (s.cfg.fbCols / 32 + 1) * 4 * s.cfg.fbRows)
    ∧ (s.cfg.fbFormat = .color8 → n = s.cfg.fbCols * s.cfg.fbRows)
    ∧ (s.cfg.fbFormat = .color8Circular → n = (s.cfg.rowtab.map fun e => e.maxX - e.minX + 1).sum
        ∧ ∃ e, s.cfg.rowtab.getLast? = some e ∧ (n : Int) = e.offset + e.maxX + 1)

/-- FB_HAS_NEXT_ROW puts 1 in RES0 exactly when the framebuffer is dirty and the cursor is below the dirty height (R294). -/
def Obligations.HasNextRowAnswersInRes0 : Prop :=
  decode (.cmd 0x00000014) = .ok .fbHasNextRow
    ∧ ∀ s : State, accepting s = true → exec .fbHasNextRow s = .next { endedOk s s.mem with
        res0 := if s.fbFlags.getLsbD 0 = true ∧ ((s.fbCursor.extractLsb' 0 16).toNat : Int) < highField s.fbDirtySize
          then 1 else 0 }

/-- FB_NEXT_ROW hands the next dirty row to ROW_OUT and advances the cursor, or reports code 4 and changes nothing else (47_framebuffer R296, 47_framebuffer R287, 60_exceptions R315). -/
def Obligations.NextRowYieldsTheRow : Prop :=
  ∀ s : State, inv s = true → accepting s = true →
    (0 < rowsLeft s →
      let y := (dirtyRect s).y + s.fbCursor.toNat
      exec .fbNextRow s = .next { endedOk s s.mem with
        res0 := BitVec.ofInt 32 y
        res1 := BitVec.ofInt 32 (fbRowStart s.cfg y)
        res2 := BitVec.ofNat 32 (fbRowLength s.cfg y)
        fbCursor := s.fbCursor + 1
        rowOut := s.rowOut ++ [⟨y, fbRowBytes s y⟩] })
    ∧ (rowsLeft s = 0 → exec .fbNextRow s = .next (endedError s 4 0))

/-- FB_RESET_DIRTY clears the dirty size, IS_DIRTY and the cursor, keeps the dirty origin, and ends with OK (R297). -/
def Obligations.ResetDirtyCleansTheState : Prop :=
  decode (.cmd 0x00000016) = .ok .fbResetDirty
    ∧ ∀ s : State, accepting s = true → exec .fbResetDirty s =
        .next { endedOk s s.mem with fbDirtySize := 0, fbFlags := 0, fbCursor := 0 }

/-- Issuing FB_NEXT_ROW while rows are left yields exactly the rows still to come, each once, in rising order (47_framebuffer R292, 47_framebuffer R296, 47_framebuffer R300). -/
def Obligations.FlushYieldsEachDirtyRowOnce : Prop :=
  ∀ (s : State) (n : Nat), inv s = true → accepting s = true → n ≤ rowsLeft s →
    ∃ t, repeatExec .fbNextRow n s = .next t
      ∧ t.rowOut = s.rowOut ++ (List.range n).map (fun (k : Nat) =>
          let y := (dirtyRect s).y + s.fbCursor.toNat + k
          ⟨y, fbRowBytes s y⟩)
      ∧ t.fbCursor.toNat = s.fbCursor.toNat + n
      ∧ rowsLeft t = rowsLeft s - n
      ∧ t.mem = s.mem ∧ dirtyRect t = dirtyRect s ∧ accepting t = true
end

