-- ==== Sys2Proof/Laws/Memory.lean ====
section
/-! SUPPORT. PIXMEM: what a read gives after a write, and the canonical form kept by every memory operation (20_memory R60,
R62, R69). -/

namespace Sys2Proof.Machine

theorem memGet_memSet_same (m : Memory) (a : Nat) (v : Byte) : memGet (memSet m a v) a = some v := by
  induction m with
  | nil => simp [memSet, memGet]
  | cons c m ih =>
    obtain ⟨k, w⟩ := c
    simp only [memSet]
    split
    · simp [memGet]
    · split
      · simp [memGet]
      · simp [memGet, *]

theorem memGet_memSet_other (m : Memory) {a b : Nat} (v : Byte) (h : b ≠ a) :
    memGet (memSet m a v) b = memGet m b := by
  induction m with
  | nil => simp [memSet, memGet, h]
  | cons c m ih =>
    obtain ⟨k, w⟩ := c
    simp only [memSet]
    split
    · simp [memGet, h]
    · split
      · subst_vars; simp [memGet, h]
      · simp [memGet, ih]

theorem memGet_memSet (m : Memory) (a b : Nat) (v : Byte) :
    memGet (memSet m a v) b = if b = a then some v else memGet m b := by
  split
  · subst_vars; exact memGet_memSet_same m _ v
  · exact memGet_memSet_other m v ‹_›

theorem peek_memSet (e : Nat) (m : Memory) (a b : Nat) (v : Byte) :
    peek e (memSet m a v) b = if b = a then v else peek e m b := by
  simp only [peek, memGet_memSet]
  split <;> simp

/-! ### The canonical form -/

theorem risingFrom_memSet {lo : Nat} {m : Memory} {a : Nat} {v : Byte} (hlo : lo ≤ a)
    (h : risingFrom lo m = true) : risingFrom lo (memSet m a v) = true := by
  induction m generalizing lo with
  | nil => simp [memSet, risingFrom, hlo]
  | cons c m ih =>
    obtain ⟨k, w⟩ := c
    simp only [risingFrom, Bool.and_eq_true, decide_eq_true_eq] at h
    simp only [memSet]
    split
    · simp [risingFrom, hlo, h.2]; omega
    · split
      · subst_vars; simp [risingFrom, h]
      · simp only [risingFrom, Bool.and_eq_true, decide_eq_true_eq]
        exact ⟨h.1, ih (by omega) h.2⟩

theorem inSpace_memSet {m : Memory} {a : Nat} {v : Byte} (ha : a < 4294967296)
    (h : (m.all fun c => c.1 < 4294967296) = true) :
    ((memSet m a v).all fun c => c.1 < 4294967296) = true := by
  induction m with
  | nil => simp only [memSet, List.all_cons, List.all_nil, Bool.and_true, decide_eq_true_eq]; exact ha
  | cons c m ih =>
    obtain ⟨k, w⟩ := c
    simp only [List.all_cons, Bool.and_eq_true, decide_eq_true_eq] at h
    simp only [memSet]
    split
    · simp only [List.all_cons, Bool.and_eq_true, decide_eq_true_eq]; exact ⟨ha, h⟩
    · split
      · simp only [List.all_cons, Bool.and_eq_true, decide_eq_true_eq]; exact ⟨ha, h.2⟩
      · simp only [List.all_cons, Bool.and_eq_true, decide_eq_true_eq]; exact ⟨h.1, ih h.2⟩

theorem memWf_nil : memWf [] = true := rfl

theorem memWf_memSet {m : Memory} {a : Nat} {v : Byte} (ha : a < 4294967296) (h : memWf m = true) :
    memWf (memSet m a v) = true := by
  simp only [memWf, Bool.and_eq_true] at h ⊢
  exact ⟨risingFrom_memSet (Nat.zero_le a) h.1, inSpace_memSet ha h.2⟩

theorem pixAddr_lt (a : Int) : pixAddr a < 4294967296 := by
  unfold pixAddr; omega

theorem pixAddr_natCast {a : Nat} (h : a < 4294967296) : pixAddr (a : Int) = a := by
  unfold pixAddr; omega

theorem memWf_fillBytes {m : Memory} {a : Nat} {v : Byte} {n : Nat} (h : memWf m = true) :
    memWf (fillBytes m a v n) = true := by
  induction n generalizing m a with
  | zero => exact h
  | succ n ih => exact ih (memWf_memSet (pixAddr_lt _) h)

theorem memWf_writeByte {e : PixEnv} {m m' : Memory} {a : Int} {v : Byte} (h : writeByte e m a v = .ok m')
    (hm : memWf m = true) : memWf m' = true := by
  simp only [writeByte] at h
  split at h
  · cases h; exact memWf_memSet (pixAddr_lt _) hm
  · cases h

/-! ### What one access can do -/

/-- A byte read gives the byte exactly where it is backed. -/
theorem readByte_eq_ok {e : PixEnv} {m : Memory} {a : Int} {v : Byte} :
    readByte e m a = .ok v ↔ isBacked e.backed (pixAddr a) = true ∧ v = peek e.epoch m (pixAddr a) := by
  unfold readByte
  split
  · constructor
    · rintro h; cases h; exact ⟨‹_›, rfl⟩
    · rintro ⟨_, rfl⟩; rfl
  · constructor
    · rintro h; cases h
    · rintro ⟨h, _⟩; contradiction

theorem readByte_of_backed {e : PixEnv} {m : Memory} {a : Int} (h : isBacked e.backed (pixAddr a) = true) :
    readByte e m a = .ok (peek e.epoch m (pixAddr a)) := readByte_eq_ok.2 ⟨h, rfl⟩

theorem writeByte_of_backed {e : PixEnv} {m : Memory} {a : Int} (v : Byte)
    (h : isBacked e.backed (pixAddr a) = true) : writeByte e m a v = .ok (memSet m (pixAddr a) v) := by
  unfold writeByte; rw [if_pos h]

/-- A byte written reads back, and no other byte changes. -/
theorem writeByte_eq_ok {e : PixEnv} {m m' : Memory} {a : Int} {v : Byte} :
    writeByte e m a v = .ok m' ↔ isBacked e.backed (pixAddr a) = true ∧ m' = memSet m (pixAddr a) v := by
  unfold writeByte
  split
  · constructor
    · rintro h; cases h; exact ⟨‹_›, rfl⟩
    · rintro ⟨_, rfl⟩; rfl
  · constructor
    · rintro h; cases h
    · rintro ⟨h, _⟩; contradiction

theorem except_bind_eq_ok {α β : Type} {x : Except Stop α} {f : α → Except Stop β} {b : β} :
    (x >>= f) = .ok b ↔ ∃ a, x = .ok a ∧ f a = .ok b := by
  cases x <;> simp [bind, Except.bind]

theorem memWf_writeWord {e : PixEnv} {m m' : Memory} {a : Int} {v : Word} (h : writeWord e m a v = .ok m')
    (hm : memWf m = true) : memWf m' = true := by
  simp only [writeWord, except_bind_eq_ok] at h
  obtain ⟨_, h0, _, h1, _, h2, h3⟩ := h
  exact memWf_writeByte h3 (memWf_writeByte h2 (memWf_writeByte h1 (memWf_writeByte h0 hm)))

/-- A word written leaves every byte outside its four bytes as it was. -/
theorem peek_writeWord_other {e : PixEnv} {m m' : Memory} {a : Int} {v : Word} (h : writeWord e m a v = .ok m')
    {b : Nat} (h0 : b ≠ pixAddr a) (h1 : b ≠ pixAddr (a + 1)) (h2 : b ≠ pixAddr (a + 2))
    (h3 : b ≠ pixAddr (a + 3)) (ep : Nat) : peek ep m' b = peek ep m b := by
  simp only [writeWord, except_bind_eq_ok, writeByte_eq_ok] at h
  obtain ⟨_, ⟨_, rfl⟩, _, ⟨_, rfl⟩, _, ⟨_, rfl⟩, _, rfl⟩ := h
  simp [peek_memSet, h0, h1, h2, h3]

theorem peek_fillBytes (e : Nat) (m : Memory) (a : Nat) (v : Byte) (n b : Nat) (ha : a + n ≤ 4294967296) :
    peek e (fillBytes m a v n) b = if a ≤ b ∧ b < a + n then v else peek e m b := by
  induction n generalizing m a with
  | zero => simp only [fillBytes]; rw [if_neg (by omega)]
  | succ n ih =>
    simp only [fillBytes]
    rw [ih _ _ (by omega), peek_memSet, pixAddr_natCast (by omega)]
    by_cases h1 : a + 1 ≤ b ∧ b < a + 1 + n
    · rw [if_pos h1, if_pos (by omega)]
    · rw [if_neg h1]
      by_cases h2 : b = a
      · rw [if_pos h2, if_pos (by omega)]
      · rw [if_neg h2, if_neg (by omega)]

end Sys2Proof.Machine
end

