-- ==== Sys2Proof/Laws/Words.lean ====
section
/-! SUPPORT. Bits: what rotation and masks do to one bit, and a word read or written bit by bit (00_scope R10, 20_memory R62,
R63). -/

namespace Sys2Proof.Machine

/-- One bit of a word rotated left (00_scope R10). -/
theorem getLsbD_rotl32 (v : Word) {n i : Nat} (hn : n < 32) (hi : i < 32) :
    (rotl32 v n).getLsbD i = v.getLsbD ((i + 32 - n) % 32) := by
  unfold rotl32
  split
  · subst_vars; congr 1; omega
  · simp only [BitVec.getLsbD_or, BitVec.getLsbD_shiftLeft, BitVec.getLsbD_ushiftRight, hi, decide_true, Bool.true_and]
    by_cases h : i < n
    · simp only [h, decide_true, Bool.not_true, Bool.false_and, Bool.false_or]
      congr 1; omega
    · have : v.getLsbD (32 - n + i) = false := BitVec.getLsbD_of_ge _ _ (by omega)
      simp only [h, decide_false, Bool.not_false, Bool.true_and, this, Bool.or_false]
      congr 1; omega

/-- One bit of `mask(n, p)` (00_scope R10). -/
theorem getLsbD_maskBits {n p i : Nat} (hi : i < 32) :
    (maskBits n p).getLsbD i = (decide (p ≤ i) && decide (i < p + n)) := by
  simp only [maskBits, BitVec.getLsbD_shiftLeft, BitVec.getLsbD_ofNat, Nat.testBit_two_pow_sub_one]
  by_cases h : p ≤ i
  · have h1 : i - p < 32 := by omega
    have h2 : ¬ i < p := by omega
    simp [hi, h1, h, h2]; omega
  · have h2 : i < p := by omega
    simp [h, h2]

/-- The rotation brings the source pixel's bit to the destination pixel's place (42_mono1_to_mono1 R191). -/
theorem getLsbD_rotl32_align (v : Word) {j k : Nat} (hj : j < 32) (hk : k < 32) :
    (rotl32 v (((32 + j - k) % 32 : Int)).toNat).getLsbD j = v.getLsbD k := by
  rw [getLsbD_rotl32 v (by omega) hj]
  congr 1; omega

theorem getLsbD_four (b0 b1 b2 b3 : Byte) {t k : Nat} (ht : t < 4) (hk : k < 8) :
    (b3 ++ b2 ++ b1 ++ b0 : BitVec 32).getLsbD (8 * t + k)
      = (if t = 0 then b0 else if t = 1 then b1 else if t = 2 then b2 else b3).getLsbD k := by
  simp only [BitVec.getLsbD_append]
  rcases (by omega : t = 0 ∨ t = 1 ∨ t = 2 ∨ t = 3) with rfl | rfl | rfl | rfl
  · simp [hk]
  · have h1 : ¬ (8 + k < 8) := by omega
    have h2 : 8 + k - 8 < 8 := by omega
    simp [h1, hk]
  · have h1 : ¬ (16 + k < 8) := by omega
    have h2 : ¬ (16 + k - 8 < 8) := by omega
    have h3 : 16 + k - 8 - 8 = k := by omega
    simp [h1, h2, h3, hk]
  · have h1 : ¬ (24 + k < 8) := by omega
    have h2 : ¬ (24 + k - 8 < 8) := by omega
    have h4 : ¬ (24 + k - 8 - 8 < 8) := by omega
    have h3 : 24 + k - 8 - 8 - 8 = k := by omega
    simp [h1, h2, h3, h4]

/-- The four bytes of a word have four addresses. -/
theorem pixAddr_add_inj {a : Int} {i j : Nat} (hi : i < 4294967296) (hj : j < 4294967296)
    (h : pixAddr (a + i) = pixAddr (a + j)) : i = j := by
  unfold pixAddr at h; omega

/-- A word read where its four bytes are backed, bit by bit (20_memory R62). -/
theorem readWord_of_backed {e : PixEnv} {m : Memory} {a : Int}
    (h : ∀ t : Nat, t < 4 → isBacked e.backed (pixAddr (a + t)) = true) :
    ∃ w, readWord e m a = .ok w ∧
      ∀ t k, t < 4 → k < 8 → w.getLsbD (8 * t + k) = (peek e.epoch m (pixAddr (a + t))).getLsbD k := by
  have h0 : isBacked e.backed (pixAddr a) = true := by simpa using h 0 (by omega)
  have h1 : isBacked e.backed (pixAddr (a + 1)) = true := by simpa using h 1 (by omega)
  have h2 : isBacked e.backed (pixAddr (a + 2)) = true := by simpa using h 2 (by omega)
  have h3 : isBacked e.backed (pixAddr (a + 3)) = true := by simpa using h 3 (by omega)
  refine ⟨peek e.epoch m (pixAddr (a + 3)) ++ peek e.epoch m (pixAddr (a + 2)) ++ peek e.epoch m (pixAddr (a + 1))
      ++ peek e.epoch m (pixAddr a), ?_, ?_⟩
  · simp only [readWord, readByte_of_backed, h0, h1, h2, h3, bind, Except.bind, pure, Except.pure]
  · intro t k ht hk
    rw [getLsbD_four _ _ _ _ ht hk]
    rcases (by omega : t = 0 ∨ t = 1 ∨ t = 2 ∨ t = 3) with rfl | rfl | rfl | rfl <;> simp

/-- A word written where its four bytes are backed: the bytes are its own, every other byte is kept
(20_memory R62). -/
theorem writeWord_of_backed {e : PixEnv} {m : Memory} {a : Int} (v : Word)
    (h : ∀ t : Nat, t < 4 → isBacked e.backed (pixAddr (a + t)) = true) :
    ∃ m', writeWord e m a v = .ok m'
      ∧ (∀ ep t, t < 4 → peek ep m' (pixAddr (a + (t : Nat))) = v.extractLsb' (8 * t) 8)
      ∧ ∀ ep b, (∀ t : Nat, t < 4 → b ≠ pixAddr (a + t)) → peek ep m' b = peek ep m b := by
  have h0 : isBacked e.backed (pixAddr a) = true := by simpa using h 0 (by omega)
  have h1 : isBacked e.backed (pixAddr (a + 1)) = true := by simpa using h 1 (by omega)
  have h2 : isBacked e.backed (pixAddr (a + 2)) = true := by simpa using h 2 (by omega)
  have h3 : isBacked e.backed (pixAddr (a + 3)) = true := by simpa using h 3 (by omega)
  have hw : writeWord e m a v = .ok (memSet (memSet (memSet (memSet m (pixAddr a) (v.extractLsb' 0 8))
      (pixAddr (a + 1)) (v.extractLsb' 8 8)) (pixAddr (a + 2)) (v.extractLsb' 16 8)) (pixAddr (a + 3))
      (v.extractLsb' 24 8)) := by
    simp only [writeWord, writeByte_of_backed, h0, h1, h2, h3, bind, Except.bind]
  have n01 : pixAddr a ≠ pixAddr (a + 1) := by unfold pixAddr; omega
  have n02 : pixAddr a ≠ pixAddr (a + 2) := by unfold pixAddr; omega
  have n03 : pixAddr a ≠ pixAddr (a + 3) := by unfold pixAddr; omega
  have n12 : pixAddr (a + 1) ≠ pixAddr (a + 2) := by unfold pixAddr; omega
  have n13 : pixAddr (a + 1) ≠ pixAddr (a + 3) := by unfold pixAddr; omega
  have n23 : pixAddr (a + 2) ≠ pixAddr (a + 3) := by unfold pixAddr; omega
  refine ⟨_, hw, ?_, ?_⟩
  · intro ep t ht
    rcases (by omega : t = 0 ∨ t = 1 ∨ t = 2 ∨ t = 3) with rfl | rfl | rfl | rfl <;>
      simp [peek_memSet, n01, n02, n03, n12, n13, n23]
  · intro ep b hb
    have c0 : b ≠ pixAddr a := by simpa using hb 0 (by omega)
    have c1 : b ≠ pixAddr (a + 1) := by simpa using hb 1 (by omega)
    have c2 : b ≠ pixAddr (a + 2) := by simpa using hb 2 (by omega)
    have c3 : b ≠ pixAddr (a + 3) := by simpa using hb 3 (by omega)
    simp [peek_memSet, c0, c1, c2, c3]

end Sys2Proof.Machine
end

