-- ==== Sys2Proof/Laws/Blit.lean ====
section
/-! SUPPORT. What the shared operations of a BLIT can do: the loop over the pixels, the end of a routine, the entry checks
(41_dispatch R170, R171, 60_exceptions R311, R318). -/

namespace Sys2Proof.Machine

/-- What a property of memory that every pixel keeps is kept by the loop. -/
theorem runPixels_keeps {f : Px → Memory → Except Stop Memory} {P : Memory → Prop} {px : List Px} {m m' : Memory}
    (hf : ∀ p ∈ px, ∀ m m', f p m = .ok m' → P m → P m') (h : runPixels f px m = .ok m') (hm : P m) : P m' := by
  induction px generalizing m with
  | nil => cases h; exact hm
  | cons p ps ih =>
    simp only [runPixels] at h
    split at h
    · cases h
    · rename_i m1 h1
      exact ih (fun q hq => hf q (List.mem_cons_of_mem _ hq)) h (hf p (List.mem_cons_self ..) _ _ h1 hm)

/-- The loop as a fold over what is seen at one place `x`: each pixel runs while `Good` holds, keeps it, and makes
`upd p x v` of the value `v` seen there. -/
theorem runPixels_fold {X V : Type} {f : Px → Memory → Except Stop Memory} {view : Memory → X → V}
    {upd : Px → X → V → V} {Good : Memory → Prop} {px : List Px} {m : Memory}
    (hf : ∀ p ∈ px, ∀ m, Good m → ∃ m', f p m = .ok m' ∧ Good m' ∧ ∀ x, view m' x = upd p x (view m x))
    (hm : Good m) :
    ∃ m', runPixels f px m = .ok m' ∧ Good m' ∧ ∀ x, view m' x = px.foldl (fun v p => upd p x v) (view m x) := by
  induction px generalizing m with
  | nil => exact ⟨m, rfl, hm, fun _ => rfl⟩
  | cons p ps ih =>
    obtain ⟨m1, h1, hg, hv⟩ := hf p (List.mem_cons_self ..) m hm
    obtain ⟨m2, h2, hg2, hv2⟩ := ih (fun q hq => hf q (List.mem_cons_of_mem _ hq)) hg
    refine ⟨m2, ?_, hg2, fun x => ?_⟩
    · simp only [runPixels, h1, h2]
    · rw [hv2, hv]; rfl

/-- Everything a routine's loop can answer with a next state. -/
theorem runBlit_next {f : Px → Memory → Except Stop Memory} {a : BlitArgs} {s t : State}
    (h : runBlit f a s = .next t) :
    footprintsMeet a (visited s a) = false ∧ ∃ m, runPixels f (visited s a) s.mem = .ok m
      ∧ (((blitPlan s.cfg.rowtab a).stop = none ∧ t = endOk (setMem s m))
        ∨ ∃ c, (blitPlan s.cfg.rowtab a).stop = some (.fatal c) ∧ t = raiseFatal c (setMem s m)) := by
  unfold runBlit at h
  simp only at h
  split at h
  · cases h
  · rename_i hf
    split at h
    · rename_i x _; cases x <;> cases h
    · rename_i m hm
      refine ⟨by simpa [visited] using hf, m, hm, ?_⟩
      unfold endRows at h
      split at h
      · rename_i hs; cases h; exact .inl ⟨hs, rfl⟩
      · rename_i c hs; cases h; exact .inr ⟨c, hs, rfl⟩
      · cases h

/-- A routine's loop where the source and destination are apart and every pixel runs. -/
theorem runBlit_of_run {f : Px → Memory → Except Stop Memory} {a : BlitArgs} {s : State} {m : Memory}
    (ha : footprintsMeet a (visited s a) = false) (hm : runPixels f (visited s a) s.mem = .ok m) :
    runBlit f a s = endRows (blitPlan s.cfg.rowtab a).stop (setMem s m) := by
  have ha' : footprintsMeet a (blitPlan s.cfg.rowtab a).pixels = false := ha
  have hm' : runPixels f (blitPlan s.cfg.rowtab a).pixels s.mem = .ok m := hm
  simp [runBlit, ha', hm']

/-- Everything the rejection of an operator can answer with a next state. -/
theorem rejectBlit_next {look : Px → Memory → Except Stop Unit} {a : BlitArgs} {s t : State}
    (h : rejectBlit look a s = .next t) :
    (visited s a ≠ [] ∧ t = raiseError .unsupportedOperator s)
      ∨ (visited s a = [] ∧ (((blitPlan s.cfg.rowtab a).stop = none ∧ t = endOk s)
        ∨ ∃ c, (blitPlan s.cfg.rowtab a).stop = some (.fatal c) ∧ t = raiseFatal c s)) := by
  unfold rejectBlit at h
  simp only at h
  split at h
  · rename_i hp
    refine .inr ⟨hp, ?_⟩
    unfold endRows at h
    split at h
    · rename_i hs; cases h; exact .inl ⟨hs, rfl⟩
    · rename_i c hs; cases h; exact .inr ⟨c, hs, rfl⟩
    · cases h
  · rename_i q _ hp
    refine .inl ⟨by simp [visited, hp], ?_⟩
    split at h
    · rename_i x _; cases x <;> cases h
    · cases h; rfl

/-! ### STATUS at the end of a command, as the masks of the rules -/

theorem withCode_error (st : Word) (c : ResultCode) : withCode st c = errorStatus st (codeBits c).toNat := by
  apply BitVec.eq_of_getLsbD_eq
  intro i hi
  have hm : ∀ j : Fin 32, (0xFFFFFFF0 : Word).getLsbD j.val = !decide (j.val < 4) := by decide
  have hc : ∀ (c : ResultCode) (j : Fin 32), (BitVec.ofNat 32 (codeBits c).toNat).getLsbD j.val
      = (decide (j.val < 4) && (codeBits c).getLsbD j.val) := by intro c; cases c <;> decide
  have hm' := hm ⟨i, hi⟩
  have hc' := hc c ⟨i, hi⟩
  simp only at hm' hc'
  simp only [withCode, errorStatus, BitVec.getLsbD_append, BitVec.getLsbD_and, BitVec.getLsbD_or,
    BitVec.getLsbD_extractLsb', hm', hc']
  by_cases h : i < 4
  · simp [h]
  · have h2 : i - 4 < 28 := by omega
    have h3 : 4 + (i - 4) = i := by omega
    simp [h, h2, h3]

theorem withCode_ok (st : Word) : withCode st .ok = okStatus st := by
  simp [withCode_error, errorStatus, okStatus, codeBits]

theorem withFatal_halt (st : Word) (c : FatalCause) : withFatal st c = haltStatus st (causeBits c).toNat := by
  apply BitVec.eq_of_getLsbD_eq
  intro i hi
  have hm : ∀ j : Fin 32, (0x7FFFF0FF : Word).getLsbD j.val
      = (decide (j.val < 8) || (decide (12 ≤ j.val) && decide (j.val < 31))) := by decide
  have ht : ∀ j : Fin 32, (0x80000000 : Word).getLsbD j.val = decide (j.val = 31) := by decide
  have hc : ∀ (c : FatalCause) (j : Fin 32), (BitVec.ofNat 32 ((causeBits c).toNat * 256)).getLsbD j.val
      = (decide (8 ≤ j.val) && decide (j.val < 12) && (causeBits c).getLsbD (j.val - 8)) := by
    intro c; cases c <;> decide
  have hm' := hm ⟨i, hi⟩
  have ht' := ht ⟨i, hi⟩
  have hc' := hc c ⟨i, hi⟩
  simp only at hm' ht' hc'
  simp only [withFatal, haltStatus, BitVec.getLsbD_append, BitVec.getLsbD_and, BitVec.getLsbD_or,
    BitVec.getLsbD_extractLsb', hm', ht', hc']
  by_cases h8 : i < 8
  · have h1 : ¬ i = 31 := by omega
    have h2 : ¬ 8 ≤ i := by omega
    simp [h8, h1, h2]
  · by_cases h12 : i < 12
    · have h1 : ¬ i = 31 := by omega
      have h2 : 8 ≤ i := by omega
      have h3 : i - 8 < 4 := by omega
      have h4 : ¬ 12 ≤ i := by omega
      simp [h8, h1, h2, h3, h4, h12]
    · by_cases h31 : i < 31
      · have h1 : ¬ i = 31 := by omega
        have h3 : ¬ i - 8 < 4 := by omega
        have h4 : 12 ≤ i := by omega
        have h5 : i - 8 - 4 < 19 := by omega
        have h6 : 12 + (i - 8 - 4) = i := by omega
        simp [h8, h1, h3, h4, h5, h6, h12, h31]
      · have h1 : i = 31 := by omega
        subst h1
        simp

theorem endOk_eq (s : State) : endOk s = endedOk s s.mem := by simp [endOk, endedOk, withCode_ok]

theorem endOk_setMem (s : State) (m : Memory) : endOk (setMem s m) = endedOk s m := by
  simp [endOk, setMem, endedOk, withCode_ok]

theorem raiseError_eq (c : ResultCode) (s : State) : raiseError c s = endedError s (codeBits c).toNat (logBit c) := by
  simp [raiseError, endedError, withCode_error]

theorem raiseFatal_setMem (c : FatalCause) (s : State) (m : Memory) :
    raiseFatal c (setMem s m) = endedHalt s m (causeBits c).toNat := by
  simp [raiseFatal, setMem, endedHalt, withFatal_halt]

theorem raiseFatal_eq (c : FatalCause) (s : State) : raiseFatal c s = endedHalt s s.mem (causeBits c).toNat := by
  simp [raiseFatal, endedHalt, withFatal_halt]

theorem whenAccepting_of_accepting {s : State} (h : accepting s = true) (f : State → Answer) :
    whenAccepting s f = f s := by
  have : statusFatal s.status = false := by simpa [accepting, statusFatal] using h
  simp [whenAccepting, this]

theorem whenAccepting_of_halted {s : State} (h : accepting s = false) (f : State → Answer) :
    whenAccepting s f = .next s := by
  have : statusFatal s.status = true := by simpa [accepting, statusFatal] using h
  simp [whenAccepting, this]

end Sys2Proof.Machine
end

