-- ==== Sys2Proof/Laws/PerInstr.lean ====
section
/-! SUPPORT. Each well-formed instruction is encoded in its own row of spec/opcode_table.json (30_encoding R100, R105). -/

namespace Sys2Proof

/-- A row of spec/opcode_table.json: the width of its space, the mask of its fixed bits and their value. -/
structure TableRow where
  width : Nat
  mask : Nat
  pat : Nat
deriving DecidableEq, Repr

/-- The row of each instruction, written out from the table's `encoding` strings. -/
def tableRow : Instr → TableRow
  | .blit => ⟨32, 0xFFFFFFFF, 0x00000001⟩
  | .blitAt => ⟨32, 0xFFFFFFFF, 0x00000002⟩
  | .isNoop => ⟨32, 0xFFFFFFFF, 0x00000003⟩
  | .fbClear => ⟨32, 0xFFFFFFFF, 0x00000010⟩
  | .fbMarkDirty => ⟨32, 0xFFFFFFFF, 0x00000011⟩
  | .fbGetRow => ⟨32, 0xFFFFFFFF, 0x00000012⟩
  | .fbSizeBytes => ⟨32, 0xFFFFFFFF, 0x00000013⟩
  | .fbHasNextRow => ⟨32, 0xFFFFFFFF, 0x00000014⟩
  | .fbNextRow => ⟨32, 0xFFFFFFFF, 0x00000015⟩
  | .fbResetDirty => ⟨32, 0xFFFFFFFF, 0x00000016⟩
  | .m1m1Assign => ⟨9, 0x1FF, 0x000⟩
  | .m1m1AssignInverted => ⟨9, 0x1FF, 0x040⟩
  | .m1m1Or => ⟨9, 0x1FF, 0x080⟩
  | .m1m1And => ⟨9, 0x1FF, 0x0C0⟩
  | .m1m1Clear => ⟨9, 0x1FF, 0x100⟩
  | .m1m1Set => ⟨9, 0x1FF, 0x140⟩
  | .m1m1Tint => ⟨9, 0x1FF, 0x180⟩
  | .m1m1TintLuminance => ⟨9, 0x1FF, 0x1C0⟩
  | .palm1AssignP1 => ⟨9, 0x1FF, 0x001⟩
  | .palm1AssignP2 => ⟨9, 0x1FF, 0x002⟩
  | .palm1AssignInvertedP1 => ⟨9, 0x1FF, 0x041⟩
  | .palm1AssignInvertedP2 => ⟨9, 0x1FF, 0x042⟩
  | .palm1OrP1 => ⟨9, 0x1FF, 0x081⟩
  | .palm1OrP2 => ⟨9, 0x1FF, 0x082⟩
  | .palm1AndP1 => ⟨9, 0x1FF, 0x0C1⟩
  | .palm1AndP2 => ⟨9, 0x1FF, 0x0C2⟩
  | .palm1ClearP1 => ⟨9, 0x1FF, 0x101⟩
  | .palm1ClearP2 => ⟨9, 0x1FF, 0x102⟩
  | .palm1SetP1 => ⟨9, 0x1FF, 0x141⟩
  | .palm1SetP2 => ⟨9, 0x1FF, 0x142⟩
  | .palm1TintP1 => ⟨9, 0x1FF, 0x181⟩
  | .palm1TintP2 => ⟨9, 0x1FF, 0x182⟩
  | .palm1TintLuminanceP1 => ⟨9, 0x1FF, 0x1C1⟩
  | .palm1TintLuminanceP2 => ⟨9, 0x1FF, 0x1C2⟩
  | .palc8AssignP1 _ => ⟨9, 0x1F7, 0x021⟩
  | .palc8AssignP24 _ _ => ⟨9, 0x1F6, 0x022⟩
  | .palc8AssignInvertedP1 _ => ⟨9, 0x1F7, 0x061⟩
  | .palc8AssignInvertedP24 _ _ => ⟨9, 0x1F6, 0x062⟩
  | .palc8OrP1 _ => ⟨9, 0x1F7, 0x0A1⟩
  | .palc8OrP24 _ _ => ⟨9, 0x1F6, 0x0A2⟩
  | .palc8AndP1 _ => ⟨9, 0x1F7, 0x0E1⟩
  | .palc8AndP24 _ _ => ⟨9, 0x1F6, 0x0E2⟩
  | .palc8ClearP1 _ => ⟨9, 0x1F7, 0x121⟩
  | .palc8ClearP24 _ _ => ⟨9, 0x1F6, 0x122⟩
  | .palc8SetP1 _ => ⟨9, 0x1F7, 0x161⟩
  | .palc8SetP24 _ _ => ⟨9, 0x1F6, 0x162⟩
  | .palc8TintP1 _ => ⟨9, 0x1F7, 0x1A1⟩
  | .palc8TintP24 _ _ => ⟨9, 0x1F6, 0x1A2⟩
  | .palc8TintLuminanceP1 _ => ⟨9, 0x1F7, 0x1E1⟩
  | .palc8TintLuminanceP24 _ _ => ⟨9, 0x1F6, 0x1E2⟩
  | .c8c8Assign _ _ => ⟨9, 0x1F6, 0x024⟩
  | .c8c8AssignInverted _ _ => ⟨9, 0x1F6, 0x064⟩
  | .c8c8Or _ _ => ⟨9, 0x1F6, 0x0A4⟩
  | .c8c8And _ _ => ⟨9, 0x1F6, 0x0E4⟩
  | .c8c8Clear _ _ => ⟨9, 0x1F6, 0x124⟩
  | .c8c8Set _ _ => ⟨9, 0x1F6, 0x164⟩
  | .c8c8Tint _ _ => ⟨9, 0x1F6, 0x1A4⟩
  | .c8c8TintLuminance _ _ => ⟨9, 0x1F6, 0x1E4⟩
  | .m1c8Assign _ => ⟨9, 0x1F7, 0x020⟩
  | .m1c8AssignInverted _ => ⟨9, 0x1F7, 0x060⟩
  | .m1c8Or _ => ⟨9, 0x1F7, 0x0A0⟩
  | .m1c8And _ => ⟨9, 0x1F7, 0x0E0⟩
  | .m1c8Clear _ => ⟨9, 0x1F7, 0x120⟩
  | .m1c8Set _ => ⟨9, 0x1F7, 0x160⟩
  | .m1c8Tint _ => ⟨9, 0x1F7, 0x1A0⟩
  | .m1c8TintLuminance _ => ⟨9, 0x1F7, 0x1E0⟩
  | .unsupportedDPalette1 _ _ => ⟨9, 0x038, 0x008⟩
  | .unsupportedDPalette24 _ _ _ => ⟨9, 0x030, 0x010⟩
  | .unsupportedDReserved _ _ _ => ⟨9, 0x030, 0x030⟩
  | .unsupportedMono1FromP4 _ => ⟨9, 0x03F, 0x003⟩
  | .unsupportedMono1FromC8OrReserved _ _ => ⟨9, 0x03C, 0x004⟩
  | .unsupportedC8FromReserved _ _ _ => ⟨9, 0x036, 0x026⟩

/-- A packet lies in a row: its space has the row's width, its fixed bits have the row's values, and a key has no bit
above the ninth. -/
def inRow (p : Packet) (r : TableRow) : Bool :=
  match p with
  | .cmd w => r.width == 32 && w.toNat &&& r.mask == r.pat
  | .key k => r.width == 9 && k.toNat < 512 && k.toNat &&& r.mask == r.pat

end Sys2Proof

namespace Sys2Proof.Laws.EncodesItsRow

/-- Every well-formed instruction is encoded in its own row of the table. -/
def Statement (i : Instr) : Prop := i.wellFormed = true → inRow (encode i) (tableRow i) = true

theorem blit : Statement .blit := by unfold Statement; decide
theorem blitAt : Statement .blitAt := by unfold Statement; decide
theorem isNoop : Statement .isNoop := by unfold Statement; decide
theorem fbClear : Statement .fbClear := by unfold Statement; decide
theorem fbMarkDirty : Statement .fbMarkDirty := by unfold Statement; decide
theorem fbGetRow : Statement .fbGetRow := by unfold Statement; decide
theorem fbSizeBytes : Statement .fbSizeBytes := by unfold Statement; decide
theorem fbHasNextRow : Statement .fbHasNextRow := by unfold Statement; decide
theorem fbNextRow : Statement .fbNextRow := by unfold Statement; decide
theorem fbResetDirty : Statement .fbResetDirty := by unfold Statement; decide
theorem m1m1Assign : Statement .m1m1Assign := by unfold Statement; decide
theorem m1m1AssignInverted : Statement .m1m1AssignInverted := by unfold Statement; decide
theorem m1m1Or : Statement .m1m1Or := by unfold Statement; decide
theorem m1m1And : Statement .m1m1And := by unfold Statement; decide
theorem m1m1Clear : Statement .m1m1Clear := by unfold Statement; decide
theorem m1m1Set : Statement .m1m1Set := by unfold Statement; decide
theorem m1m1Tint : Statement .m1m1Tint := by unfold Statement; decide
theorem m1m1TintLuminance : Statement .m1m1TintLuminance := by unfold Statement; decide
theorem palm1AssignP1 : Statement .palm1AssignP1 := by unfold Statement; decide
theorem palm1AssignP2 : Statement .palm1AssignP2 := by unfold Statement; decide
theorem palm1AssignInvertedP1 : Statement .palm1AssignInvertedP1 := by unfold Statement; decide
theorem palm1AssignInvertedP2 : Statement .palm1AssignInvertedP2 := by unfold Statement; decide
theorem palm1OrP1 : Statement .palm1OrP1 := by unfold Statement; decide
theorem palm1OrP2 : Statement .palm1OrP2 := by unfold Statement; decide
theorem palm1AndP1 : Statement .palm1AndP1 := by unfold Statement; decide
theorem palm1AndP2 : Statement .palm1AndP2 := by unfold Statement; decide
theorem palm1ClearP1 : Statement .palm1ClearP1 := by unfold Statement; decide
theorem palm1ClearP2 : Statement .palm1ClearP2 := by unfold Statement; decide
theorem palm1SetP1 : Statement .palm1SetP1 := by unfold Statement; decide
theorem palm1SetP2 : Statement .palm1SetP2 := by unfold Statement; decide
theorem palm1TintP1 : Statement .palm1TintP1 := by unfold Statement; decide
theorem palm1TintP2 : Statement .palm1TintP2 := by unfold Statement; decide
theorem palm1TintLuminanceP1 : Statement .palm1TintLuminanceP1 := by unfold Statement; decide
theorem palm1TintLuminanceP2 : Statement .palm1TintLuminanceP2 := by unfold Statement; decide
theorem palc8AssignP1 (d : PixelFormat) : Statement (.palc8AssignP1 d) := by
  cases d <;> (unfold Statement; decide)
theorem palc8AssignP24 (d : PixelFormat) (f : PixelFormat) : Statement (.palc8AssignP24 d f) := by
  cases d <;> cases f <;> (unfold Statement; decide)
theorem palc8AssignInvertedP1 (d : PixelFormat) : Statement (.palc8AssignInvertedP1 d) := by
  cases d <;> (unfold Statement; decide)
theorem palc8AssignInvertedP24 (d : PixelFormat) (f : PixelFormat) : Statement (.palc8AssignInvertedP24 d f) := by
  cases d <;> cases f <;> (unfold Statement; decide)
theorem palc8OrP1 (d : PixelFormat) : Statement (.palc8OrP1 d) := by
  cases d <;> (unfold Statement; decide)
theorem palc8OrP24 (d : PixelFormat) (f : PixelFormat) : Statement (.palc8OrP24 d f) := by
  cases d <;> cases f <;> (unfold Statement; decide)
theorem palc8AndP1 (d : PixelFormat) : Statement (.palc8AndP1 d) := by
  cases d <;> (unfold Statement; decide)
theorem palc8AndP24 (d : PixelFormat) (f : PixelFormat) : Statement (.palc8AndP24 d f) := by
  cases d <;> cases f <;> (unfold Statement; decide)
theorem palc8ClearP1 (d : PixelFormat) : Statement (.palc8ClearP1 d) := by
  cases d <;> (unfold Statement; decide)
theorem palc8ClearP24 (d : PixelFormat) (f : PixelFormat) : Statement (.palc8ClearP24 d f) := by
  cases d <;> cases f <;> (unfold Statement; decide)
theorem palc8SetP1 (d : PixelFormat) : Statement (.palc8SetP1 d) := by
  cases d <;> (unfold Statement; decide)
theorem palc8SetP24 (d : PixelFormat) (f : PixelFormat) : Statement (.palc8SetP24 d f) := by
  cases d <;> cases f <;> (unfold Statement; decide)
theorem palc8TintP1 (d : PixelFormat) : Statement (.palc8TintP1 d) := by
  cases d <;> (unfold Statement; decide)
theorem palc8TintP24 (d : PixelFormat) (f : PixelFormat) : Statement (.palc8TintP24 d f) := by
  cases d <;> cases f <;> (unfold Statement; decide)
theorem palc8TintLuminanceP1 (d : PixelFormat) : Statement (.palc8TintLuminanceP1 d) := by
  cases d <;> (unfold Statement; decide)
theorem palc8TintLuminanceP24 (d : PixelFormat) (f : PixelFormat) : Statement (.palc8TintLuminanceP24 d f) := by
  cases d <;> cases f <;> (unfold Statement; decide)
theorem c8c8Assign (d : PixelFormat) (f : PixelFormat) : Statement (.c8c8Assign d f) := by
  cases d <;> cases f <;> (unfold Statement; decide)
theorem c8c8AssignInverted (d : PixelFormat) (f : PixelFormat) : Statement (.c8c8AssignInverted d f) := by
  cases d <;> cases f <;> (unfold Statement; decide)
theorem c8c8Or (d : PixelFormat) (f : PixelFormat) : Statement (.c8c8Or d f) := by
  cases d <;> cases f <;> (unfold Statement; decide)
theorem c8c8And (d : PixelFormat) (f : PixelFormat) : Statement (.c8c8And d f) := by
  cases d <;> cases f <;> (unfold Statement; decide)
theorem c8c8Clear (d : PixelFormat) (f : PixelFormat) : Statement (.c8c8Clear d f) := by
  cases d <;> cases f <;> (unfold Statement; decide)
theorem c8c8Set (d : PixelFormat) (f : PixelFormat) : Statement (.c8c8Set d f) := by
  cases d <;> cases f <;> (unfold Statement; decide)
theorem c8c8Tint (d : PixelFormat) (f : PixelFormat) : Statement (.c8c8Tint d f) := by
  cases d <;> cases f <;> (unfold Statement; decide)
theorem c8c8TintLuminance (d : PixelFormat) (f : PixelFormat) : Statement (.c8c8TintLuminance d f) := by
  cases d <;> cases f <;> (unfold Statement; decide)
theorem m1c8Assign (d : PixelFormat) : Statement (.m1c8Assign d) := by
  cases d <;> (unfold Statement; decide)
theorem m1c8AssignInverted (d : PixelFormat) : Statement (.m1c8AssignInverted d) := by
  cases d <;> (unfold Statement; decide)
theorem m1c8Or (d : PixelFormat) : Statement (.m1c8Or d) := by
  cases d <;> (unfold Statement; decide)
theorem m1c8And (d : PixelFormat) : Statement (.m1c8And d) := by
  cases d <;> (unfold Statement; decide)
theorem m1c8Clear (d : PixelFormat) : Statement (.m1c8Clear d) := by
  cases d <;> (unfold Statement; decide)
theorem m1c8Set (d : PixelFormat) : Statement (.m1c8Set d) := by
  cases d <;> (unfold Statement; decide)
theorem m1c8Tint (d : PixelFormat) : Statement (.m1c8Tint d) := by
  cases d <;> (unfold Statement; decide)
theorem m1c8TintLuminance (d : PixelFormat) : Statement (.m1c8TintLuminance d) := by
  cases d <;> (unfold Statement; decide)
theorem unsupportedDPalette1 (op : CompOp) (f : PixelFormat) : Statement (.unsupportedDPalette1 op f) := by
  cases op <;> cases f <;> (unfold Statement; decide)
theorem unsupportedDPalette24 (op : CompOp) (d : PixelFormat) (f : PixelFormat) : Statement (.unsupportedDPalette24 op d f) := by
  cases op <;> cases d <;> cases f <;> (unfold Statement; decide)
theorem unsupportedDReserved (op : CompOp) (d : PixelFormat) (f : PixelFormat) : Statement (.unsupportedDReserved op d f) := by
  cases op <;> cases d <;> cases f <;> (unfold Statement; decide)
theorem unsupportedMono1FromP4 (op : CompOp) : Statement (.unsupportedMono1FromP4 op) := by
  cases op <;> (unfold Statement; decide)
theorem unsupportedMono1FromC8OrReserved (op : CompOp) (f : PixelFormat) : Statement (.unsupportedMono1FromC8OrReserved op f) := by
  cases op <;> cases f <;> (unfold Statement; decide)
theorem unsupportedC8FromReserved (op : CompOp) (d : PixelFormat) (f : PixelFormat) : Statement (.unsupportedC8FromReserved op d f) := by
  cases op <;> cases d <;> cases f <;> (unfold Statement; decide)

end Sys2Proof.Laws.EncodesItsRow
end

