-- ==== Sys2Proof/Laws/Plan.lean ====
section
/-! SUPPORT. What the geometry of a BLIT can give: the visited pixels of a row and of a plan (40_primitives R141 to R148). -/

namespace Sys2Proof.Machine

theorem mem_intRange {lo hi x : Int} : x ∈ intRange lo hi ↔ lo ≤ x ∧ x < hi := by
  simp only [intRange, List.mem_map, List.mem_range]
  constructor
  · rintro ⟨i, hi, rfl⟩; omega
  · rintro ⟨h1, h2⟩; exact ⟨(x - lo).toNat, by omega, by omega⟩

theorem intRange_pairwise (lo hi : Int) : (intRange lo hi).Pairwise (· < ·) := by
  simp only [intRange, List.pairwise_map]
  exact List.pairwise_lt_range.imp fun {a b} h => by omega

theorem length_intRange (lo hi : Int) : (intRange lo hi).length = (hi - lo).toNat := by simp [intRange]

/-- What the pixels of a row are, where the row runs. -/
theorem rowPixels_eq_ok {tab : List RowEntry} {a : BlitArgs} {dy : Int} {px : List Px}
    (h : rowPixels tab a dy = .ok px) :
    ∃ d r, dstRow tab a dy = .ok d ∧ srcRow tab a dy (d.lo < d.hi) = .ok r
      ∧ ((d.hi ≤ d.lo ∧ px = [])
        ∨ (d.lo < d.hi ∧ rowContract a dy d.lo d.hi = .ok ()
          ∧ px = (intRange d.lo d.hi).filterMap (pixelAt a dy d r))) := by
  unfold rowPixels at h
  simp only [bind, Except.bind, pure, Except.pure] at h
  split at h
  · cases h
  · rename_i d hd
    split at h
    · cases h
    · rename_i r hr
      refine ⟨d, r, hd, hr, ?_⟩
      split at h
      · cases h; exact .inl ⟨‹_›, rfl⟩
      · split at h
        · cases h
        · rename_i u hu
          cases h; exact .inr ⟨by omega, hu, rfl⟩

/-- A visited pixel is a pixel of one of the rows, which ran. -/
theorem mem_planRows {tab : List RowEntry} {a : BlitArgs} {rows : List Int} {p : Px}
    (h : p ∈ (planRows tab a rows).pixels) : ∃ dy ∈ rows, ∃ px, rowPixels tab a dy = .ok px ∧ p ∈ px := by
  induction rows with
  | nil => simp [planRows] at h
  | cons dy rest ih =>
    simp only [planRows] at h
    split at h
    · simp at h
    · rename_i px hpx
      simp only [List.mem_append] at h
      rcases h with h | h
      · exact ⟨dy, List.mem_cons_self .., px, hpx, h⟩
      · obtain ⟨y, hy, q⟩ := ih h
        exact ⟨y, List.mem_cons_of_mem _ hy, q⟩

/-- A pixel of a row: its source position is the tiled one, it is not skipped, and its pointers are those of its
rows. -/
theorem mem_rowPixels {tab : List RowEntry} {a : BlitArgs} {dy : Int} {px : List Px} {p : Px}
    (h : rowPixels tab a dy = .ok px) (hp : p ∈ px) :
    ∃ d r, dstRow tab a dy = .ok d ∧ srcRow tab a dy (d.lo < d.hi) = .ok r ∧ rowContract a dy d.lo d.hi = .ok ()
      ∧ d.lo ≤ p.dx ∧ p.dx < d.hi
      ∧ sourceStored a.src.format r (srcX a p.dx) = true
      ∧ p = ⟨p.dx, dy, srcX a p.dx, srcY a dy, d.dataPtr, (r.map RowInfo.dataPtr).getD 0⟩ := by
  obtain ⟨d, r, hd, hr, ⟨_, rfl⟩ | ⟨_, hc, rfl⟩⟩ := rowPixels_eq_ok h
  · simp at hp
  · refine ⟨d, r, hd, hr, hc, ?_⟩
    simp only [List.mem_filterMap, mem_intRange] at hp
    obtain ⟨x, ⟨h1, h2⟩, h3⟩ := hp
    unfold pixelAt at h3
    simp only at h3
    split at h3
    · rename_i hs
      cases h3
      exact ⟨h1, h2, hs, rfl⟩
    · cases h3

/-- A plan is the row loop's, and empty where the rectangle is empty (41_dispatch R161). -/
theorem blitPlan_eq {tab : List RowEntry} {a : BlitArgs} :
    (isEmptyRect a.rect = true ∧ blitPlan tab a = ⟨[], none⟩)
      ∨ (0 < a.rect.w ∧ 0 < a.rect.h ∧ blitPlan tab a = rowLoop tab a) := by
  unfold blitPlan
  split
  · exact .inl ⟨‹_›, rfl⟩
  · rename_i h
    simp only [isEmptyRect, Bool.or_eq_true, decide_eq_true_eq, not_or] at h
    exact .inr ⟨by omega, by omega, rfl⟩

/-- A row of a rectangle without columns visits nothing, and stops only on a row index. -/
theorem rowPixels_of_no_column {tab : List RowEntry} {a : BlitArgs} {dy : Int} (h : a.rect.w ≤ 0) :
    rowPixels tab a dy = .ok [] ∨ rowPixels tab a dy = .error (.fatal .rowIndexOutOfBounds) := by
  have hd : dstRow tab a dy = .error (.fatal .rowIndexOutOfBounds) ∨ ∃ d, dstRow tab a dy = .ok d ∧ d.hi ≤ d.lo := by
    unfold dstRow
    split
    · exact .inr ⟨_, rfl, by simp only; omega⟩
    · split
      · exact .inl rfl
      · exact .inr ⟨_, rfl, by simp only; omega⟩
  obtain hd | ⟨d, hd, hlt⟩ := hd
  · simp [rowPixels, hd, bind, Except.bind]
  · have hr : srcRow tab a dy (d.lo < d.hi) = .error (.fatal .rowIndexOutOfBounds)
        ∨ ∃ r, srcRow tab a dy (d.lo < d.hi) = .ok r := by
      unfold srcRow
      repeat' split
      all_goals simp
    obtain hr | ⟨r, hr⟩ := hr
    · simp [rowPixels, hd, hr, bind, Except.bind]
    · simp [rowPixels, hd, hr, hlt, bind, Except.bind, pure, Except.pure]

/-- All that 41_dispatch R161 takes from the row loop of an empty rectangle is the halt on a row index: the loop visits
no pixel there and refuses nothing (entry 19). -/
theorem rowLoop_of_isEmptyRect {tab : List RowEntry} {a : BlitArgs} (h : isEmptyRect a.rect = true) :
    (rowLoop tab a).pixels = []
      ∧ ((rowLoop tab a).stop = none ∨ (rowLoop tab a).stop = some (.fatal .rowIndexOutOfBounds)) := by
  simp only [isEmptyRect, Bool.or_eq_true, decide_eq_true_eq] at h
  unfold rowLoop
  obtain hw | hh := h
  · generalize intRange a.rect.y (maxY a.rect) = rows
    induction rows with
    | nil => simp [planRows]
    | cons dy rest ih =>
      obtain he | he := rowPixels_of_no_column (tab := tab) (dy := dy) hw <;> simp [planRows, he, ih]
  · have : intRange a.rect.y (maxY a.rect) = [] := List.eq_nil_of_length_eq_zero (by
      rw [length_intRange]; simp only [maxY]; omega)
    simp [this, planRows]

/-- The row loop and the plan visit the same pixels, whatever the rectangle (44 R221, 45 R242, 46 R261). -/
theorem blitPlan_pixels_eq {tab : List RowEntry} {a : BlitArgs} :
    (blitPlan tab a).pixels = (rowLoop tab a).pixels := by
  obtain ⟨h, hp⟩ | ⟨_, _, hp⟩ := blitPlan_eq (tab := tab) (a := a)
  · rw [hp, (rowLoop_of_isEmptyRect h).1]
  · rw [hp]

/-- Where the offset along y lies inside the source bounds, the descriptor asked for is that of `srcY` (40_primitives
R145). -/
theorem descriptorRow_eq {a : BlitArgs} {dy : Int} (h : 0 ≤ a.off.y ∧ a.off.y < a.src.bounds.h) :
    descriptorRow a dy = srcY a dy := by
  simp [descriptorRow, offsetInside, h]

/-- Every row of a plan that does not stop runs. -/
theorem planRows_stop_none {tab : List RowEntry} {a : BlitArgs} {rows : List Int} :
    (planRows tab a rows).stop = none ↔ ∀ dy ∈ rows, ∃ px, rowPixels tab a dy = .ok px := by
  induction rows with
  | nil => simp [planRows]
  | cons dy rest ih =>
    simp only [planRows]
    split
    · rename_i x hx; simp [hx]
    · rename_i px hpx; simp [hpx, ih]

/-- What the caller's obligations give, row by row (70_reset R346). -/
theorem rowContract_eq_ok {a : BlitArgs} {dy lo hi : Int} (h : rowContract a dy lo hi = .ok ()) :
    (0 ≤ a.rect.x ∧ 0 ≤ a.rect.y ∧ 0 ≤ a.src.bounds.x ∧ 0 ≤ a.src.bounds.y ∧ 0 ≤ a.dst.bounds.x
        ∧ 0 ≤ a.dst.bounds.y)
      ∧ (0 ≤ a.off.x ∧ a.off.x < a.src.bounds.w ∧ 0 ≤ a.off.y ∧ a.off.y < a.src.bounds.h)
      ∧ (a.dst.bounds.x ≤ lo ∧ hi ≤ maxX a.dst.bounds ∧ a.dst.bounds.y ≤ dy ∧ dy < maxY a.dst.bounds) := by
  unfold rowContract at h
  simp only at h
  split at h
  · cases h
  · rename_i h1
    split at h
    · cases h
    · rename_i h2
      split at h
      · cases h
      · rename_i h3
        simp only [Bool.or_eq_true, decide_eq_true_eq, not_or, offsetInside, Bool.not_eq_true', Bool.and_eq_false_iff,
          decide_eq_false_iff_not] at h1 h2 h3
        omega

/-- Where the obligations of a row are broken, the refusal names the first broken one (93 U3, U4, U6; entry 10). -/
theorem rowContract_eq {a : BlitArgs} {dy lo hi : Int} :
    rowContract a dy lo hi =
      if negativeOperands a then .error (.refuse .negativeCoordinates)
      else if offsetMisses a then .error (.refuse .offsetOutsideSource)
      else if a.dst.bounds.x ≤ lo ∧ hi ≤ maxX a.dst.bounds ∧ a.dst.bounds.y ≤ dy ∧ dy < maxY a.dst.bounds then .ok ()
      else .error (.refuse .rectOutsideDestination) := by
  simp only [rowContract, negativeOperands, offsetMisses, offsetInside, List.any_cons, List.any_nil, Bool.or_false,
    Bool.or_assoc, Bool.and_assoc]
  repeat' split
  all_goals first | rfl | (exfalso; simp_all)

/-- How a row stops: a row-index check fails, of the destination row or of the descriptor of the source row, or the row
visits a column and breaks an obligation (60_exceptions R320, 93 U3, U4, U6). -/
theorem rowPixels_eq_error {tab : List RowEntry} {a : BlitArgs} {dy : Int} {x : RowStop}
    (h : rowPixels tab a dy = .error x) :
    dstRow tab a dy = .error x
      ∨ ∃ d, dstRow tab a dy = .ok d ∧ (srcRow tab a dy (d.lo < d.hi) = .error x
        ∨ (d.lo < d.hi ∧ (∃ r, srcRow tab a dy (d.lo < d.hi) = .ok r) ∧ rowContract a dy d.lo d.hi = .error x)) := by
  unfold rowPixels at h
  simp only [bind, Except.bind, pure, Except.pure] at h
  split at h
  · cases h; exact .inl ‹_›
  · rename_i d hd
    refine .inr ⟨d, hd, ?_⟩
    split at h
    · cases h; exact .inl ‹_›
    · rename_i r hr
      split at h
      · cases h
      · split at h
        · cases h; exact .inr ⟨by omega, ⟨r, hr⟩, ‹_›⟩
        · cases h

/-- A plan that stops has run the rows above the one that stops it, and visits their pixels alone (60_exceptions
R320). -/
theorem planRows_stop_some {tab : List RowEntry} {a : BlitArgs} {rows : List Int} {x : RowStop}
    (h : (planRows tab a rows).stop = some x) :
    ∃ above y below, rows = above ++ y :: below ∧ (planRows tab a above).stop = none
      ∧ rowPixels tab a y = .error x ∧ (planRows tab a rows).pixels = (planRows tab a above).pixels := by
  induction rows with
  | nil => simp [planRows] at h
  | cons dy rest ih =>
    unfold planRows at h
    split at h
    · rename_i e he
      cases h
      exact ⟨[], dy, rest, rfl, rfl, he, by simp [planRows, he]⟩
    · rename_i px hpx
      obtain ⟨above, y, below, rfl, h1, h2, h3⟩ := ih h
      exact ⟨dy :: above, y, below, rfl, by simp [planRows, hpx, h1], h2, by simp [planRows, hpx, h3]⟩

/-- The destination row: a whole rectangle row for Mono1, a row window with the row's address for 8-bit formats. -/
theorem dstRow_eq_ok {tab : List RowEntry} {a : BlitArgs} {dy : Int} {d : DstRow} (h : dstRow tab a dy = .ok d)
    (hf : a.dst.format = .mono1 ∨ a.dst.format.isEightBit = true) :
    a.rect.x ≤ d.lo ∧ d.hi ≤ a.rect.x + a.rect.w
      ∧ (∀ x, d.lo ≤ x ∧ x < d.hi ↔ a.rect.x ≤ x ∧ x < a.rect.x + a.rect.w ∧ inWindow tab a.dst x dy = true)
      ∧ (a.dst.format ≠ .mono1 → ∀ x, d.dataPtr + x = colorByte tab a.dst x dy)
      ∧ (a.dst.format = .color8Circular → 0 ≤ dy ∧ dy < tab.length) := by
  unfold dstRow at h
  split at h
  · rename_i hm
    cases h
    refine ⟨by simp, by simp, fun x => by simp [inWindow, hm], fun h => absurd hm h, fun h => ?_⟩
    · rw [hm] at h; cases h
  · rename_i hm
    split at h
    · cases h
    · rename_i r hr
      cases h
      refine ⟨Int.le_max_right .., Int.min_le_left .., fun x => ?_, fun _ x => ?_, fun hc => ?_⟩
      · unfold rowInfo at hr
        split at hr
        · rename_i hc
          split at hr
          · cases hr
          · cases hg : tab[dy.toNat]? with
            | none => simp [hg] at hr
            | some e =>
              simp only [hg, Option.map_some, Option.some.injEq] at hr
              subst hr
              have h0 : 0 ≤ dy := by omega
              simp only [inWindow, hc, hg, Bool.and_eq_true, decide_eq_true_eq]
              omega
        · rename_i hc
          cases hr
          have : a.dst.format = .color8 := by
            rcases hf with h | h
            · exact absurd h hm
            · revert h hc; cases a.dst.format <;> simp [PixelFormat.isEightBit]
          simp only [inWindow, this, Bool.and_eq_true, decide_eq_true_eq]
          omega
      · unfold rowInfo at hr
        split at hr
        · rename_i hc
          split at hr
          · cases hr
          · cases hg : tab[dy.toNat]? with
            | none => simp [hg] at hr
            | some e =>
              simp only [hg, Option.map_some, Option.some.injEq] at hr
              subst hr
              simp [colorByte, hc, rowOffset, hg]
        · rename_i hc
          cases hr
          simp [colorByte, hc]
      · unfold rowInfo at hr
        rw [if_pos hc] at hr
        split at hr
        · cases hr
        · cases hg : tab[dy.toNat]? with
          | none => simp [hg] at hr
          | some e =>
            have := (List.getElem?_eq_some_iff.1 hg).1
            omega

/-- The source row: for an 8-bit format its address, and for a circular one its window. -/
theorem srcRow_eq_ok {tab : List RowEntry} {a : BlitArgs} {dy : Int} {visits : Bool} {r : Option RowInfo}
    (h : srcRow tab a dy visits = .ok r) (ho : 0 ≤ a.off.y ∧ a.off.y < a.src.bounds.h) :
    (a.src.format.isEightBit = true → ∀ x, (r.map RowInfo.dataPtr).getD 0 + x = colorByte tab a.src x (srcY a dy))
      ∧ ∀ x, sourceStored a.src.format r x
          = (a.src.format != .color8Circular || inWindow tab a.src x (srcY a dy)) := by
  unfold srcRow at h
  split at h
  · rename_i hc
    split at h
    · rename_i hv
      simp [offsetInside, ho] at hv
    · split at h
      · cases h
      · rename_i i hi
        cases h
        rw [descriptorRow_eq ho] at hi
        unfold rowInfo at hi
        rw [if_pos hc] at hi
        split at hi
        · cases hi
        · cases hg : tab[(srcY a dy).toNat]? with
          | none => simp [hg] at hi
          | some e =>
            simp only [hg, Option.map_some, Option.some.injEq] at hi
            subst hi
            have h0 : 0 ≤ srcY a dy := by omega
            refine ⟨fun _ x => by simp [colorByte, hc, rowOffset, hg], fun x => ?_⟩
            simp [sourceStored, hc, inWindow, hg, h0]
  · rename_i hc
    split at h
    · rename_i h8
      cases h
      refine ⟨fun _ x => by simp [rowInfo, hc, colorByte], fun x => ?_⟩
      simp [sourceStored, h8]
    · rename_i h8
      cases h
      refine ⟨fun h => ?_, fun x => ?_⟩
      · revert h h8 hc; cases a.src.format <;> simp [PixelFormat.isEightBit]
      · revert h8 hc; cases a.src.format <;> simp [sourceStored]

/-- A visited pixel lies in the rectangle and in its row's window, keeps the caller's obligations, and has the tiled
source position and the addresses of its rows (40_primitives R143 to R148). -/
theorem mem_visited {s : State} {a : BlitArgs} {p : Px} (h : p ∈ visited s a)
    (hf : a.dst.format = .mono1 ∨ a.dst.format.isEightBit = true) :
    inRect a.rect p.dx p.dy = true ∧ inWindow s.cfg.rowtab a.dst p.dx p.dy = true
      ∧ p.sx = srcX a p.dx ∧ p.sy = srcY a p.dy
      ∧ (a.dst.format ≠ .mono1 → p.dstPtr + p.dx = colorByte s.cfg.rowtab a.dst p.dx p.dy)
      ∧ (a.src.format.isEightBit = true → p.srcPtr + p.sx = colorByte s.cfg.rowtab a.src p.sx p.sy)
      ∧ (a.src.format = .color8Circular → inWindow s.cfg.rowtab a.src p.sx p.sy = true)
      ∧ (0 ≤ a.off.x ∧ a.off.x < a.src.bounds.w ∧ 0 ≤ a.off.y ∧ a.off.y < a.src.bounds.h)
      ∧ 0 ≤ a.rect.x ∧ 0 ≤ a.rect.y ∧ 0 ≤ a.src.bounds.x ∧ 0 ≤ a.src.bounds.y := by
  unfold visited at h
  obtain ⟨_, hp⟩ | ⟨_, _, hp⟩ := blitPlan_eq (tab := s.cfg.rowtab) (a := a)
  · rw [hp] at h; cases h
  rw [hp] at h
  obtain ⟨dy, hdy, px, hpx, hp⟩ := mem_planRows h
  obtain ⟨d, r, hd, hr, hc, h1, h2, hs, he⟩ := mem_rowPixels hpx hp
  obtain ⟨_, _, hw, hptr, _⟩ := dstRow_eq_ok hd hf
  have hcc := rowContract_eq_ok hc
  obtain ⟨hsp, hst⟩ := srcRow_eq_ok hr hcc.2.1.2.2
  have hwin := (hw p.dx).1 ⟨h1, h2⟩
  rw [mem_intRange] at hdy
  have e2 : p.dy = dy := by rw [he]
  have e3 : p.sx = srcX a p.dx := by rw [he]
  have e4 : p.sy = srcY a p.dy := by rw [he]
  have e5 : p.dstPtr = d.dataPtr := by rw [he]
  have e6 : p.srcPtr = (r.map RowInfo.dataPtr).getD 0 := by rw [he]
  rw [e2] at e4
  refine ⟨?_, by rw [e2]; exact hwin.2.2, e3, by rw [e2]; exact e4, fun hm => ?_, fun h8 => ?_, fun hcirc => ?_, hcc.2.1, hcc.1.1,
    hcc.1.2.1, hcc.1.2.2.1, hcc.1.2.2.2.1⟩
  · simp only [inRect, Bool.and_eq_true, decide_eq_true_eq, e2]
    exact ⟨⟨⟨hwin.1, hwin.2.1⟩, hdy.1⟩, hdy.2⟩
  · rw [e5, e2]; exact hptr hm _
  · rw [e6, e4]; exact hsp h8 _
  · rw [hst] at hs
    rw [e3, e4]
    simpa [hcirc] using hs

end Sys2Proof.Machine
end

