-- ==== Sys2Proof/Laws/Pixels.lean ====
section
/-! SUPPORT. One pixel of each kind: what it reads where source and destination are apart, and what it leaves at its own place
and everywhere else (20_memory R67, R71, R72). -/

namespace Sys2Proof.Machine

/-! ### What `touchable` says -/

theorem backed_of_backedBytes {s : State} {bs : List Nat} (h : backedBytes s bs = true) {b : Nat} (hb : b ∈ bs) :
    isBacked s.cfg.backed b = true := by
  simp only [backedBytes, List.all_eq_true] at h
  exact h b hb

theorem backed_src {s : State} {a : BlitArgs} (h : touchable s a = true) {p : Px} (hp : p ∈ visited s a) {b : Nat}
    (hb : b ∈ srcBytes a.src p) : isBacked s.cfg.backed b = true := by
  simp only [touchable, Bool.and_eq_true, List.all_eq_true] at h
  exact backed_of_backedBytes (h.1.2 p hp).1 hb

theorem backed_dst {s : State} {a : BlitArgs} (h : touchable s a = true) {p : Px} (hp : p ∈ visited s a) {b : Nat}
    (hb : b ∈ dstBytes a.dst p) : isBacked s.cfg.backed b = true := by
  simp only [touchable, Bool.and_eq_true, List.all_eq_true] at h
  exact backed_of_backedBytes (h.1.2 p hp).2 hb

theorem backed_palette {s : State} {a : BlitArgs} (h : touchable s a = true) {b : Nat}
    (hb : b ∈ paletteBytes a.src) : isBacked s.cfg.backed b = true := by
  simp only [touchable, Bool.and_eq_true] at h
  exact backed_of_backedBytes h.1.1 hb

theorem apart_of_touchable {s : State} {a : BlitArgs} (h : touchable s a = true) :
    footprintsMeet a (visited s a) = false := by
  simp only [touchable, Bool.and_eq_true, Bool.not_eq_true'] at h
  exact h.2

/-- A byte that a visited pixel may write is no byte of the source (20_memory R72). -/
def sourceByte (s : State) (a : BlitArgs) (b : Nat) : Prop :=
  b ∈ paletteBytes a.src ∨ ∃ p ∈ visited s a, b ∈ srcBytes a.src p

theorem not_sourceByte {s : State} {a : BlitArgs} (h : footprintsMeet a (visited s a) = false) {q : Px}
    (hq : q ∈ visited s a) {b : Nat} (hb : b ∈ dstBytes a.dst q) : ¬ sourceByte s a b := by
  rintro (hp | ⟨p, hp, hp'⟩)
  all_goals
    refine absurd h ?_
    simp only [footprintsMeet, Bool.not_eq_false, List.any_eq_true, Bool.or_eq_true, List.contains_eq_mem,
      decide_eq_true_eq]
    exact ⟨q, hq, b, hb, by first | exact .inl hp | exact .inr ⟨p, hp, hp'⟩⟩

/-- Memory whose source bytes read as in `s`. -/
def sourceKept (s : State) (a : BlitArgs) (m : Memory) : Prop :=
  ∀ b, sourceByte s a b → peek s.epoch m b = peek s.epoch s.mem b

/-! ### Reading a source pixel -/

theorem wordBytes_mem {a : Int} {t : Nat} (ht : t < 4) : pixAddr (a + t) ∈ wordBytes a := by
  rcases (by omega : t = 0 ∨ t = 1 ∨ t = 2 ∨ t = 3) with rfl | rfl | rfl | rfl <;> simp [wordBytes]

theorem mem_wordBytes {a : Int} {b : Nat} : b ∈ wordBytes a ↔ ∃ t : Nat, t < 4 ∧ b = pixAddr (a + t) := by
  constructor
  · intro h
    simp only [wordBytes, List.mem_cons, List.not_mem_nil, or_false] at h
    rcases h with rfl | rfl | rfl | rfl
    · exact ⟨0, by omega, by simp⟩
    · exact ⟨1, by omega, by simp⟩
    · exact ⟨2, by omega, by simp⟩
    · exact ⟨3, by omega, by simp⟩
  · rintro ⟨t, ht, rfl⟩; exact wordBytes_mem ht

/-- The word that holds a Mono1 pixel, and where in it the pixel lies (20_memory R63). -/
theorem mono_place (b : Bitmap) (x y : Int) :
    monoWordAddr b (x / 32) y + (((x % 32).toNat / 8 : Nat) : Int) = monoByte b x y
      ∧ (x % 32).toNat % 8 = (x % 8).toNat ∧ (x % 32).toNat / 8 < 4 ∧ (x % 32).toNat % 8 < 8
      ∧ 8 * ((x % 32).toNat / 8) + (x % 32).toNat % 8 = (x % 32).toNat := by
  unfold monoWordAddr monoByte; omega

/-- The source word of a Mono1 pixel, whatever of the destination has been written. -/
theorem readWord_source {s : State} {a : BlitArgs} {m : Memory} (h : touchable s a = true) {p : Px}
    (hp : p ∈ visited s a) (hf : a.src.format = .mono1) (hm : sourceKept s a m) :
    ∃ w, readWord (pixEnv s) m (monoWordAddr a.src (p.sx / 32) p.sy) = .ok w
      ∧ w.getLsbD (p.sx % 32).toNat = monoPixel s a.src p.sx p.sy := by
  obtain ⟨w, hw, hb⟩ := readWord_of_backed (e := pixEnv s) (m := m) (a := monoWordAddr a.src (p.sx / 32) p.sy)
    (fun t ht => backed_src h hp (by simp only [srcBytes, hf]; exact wordBytes_mem ht))
  refine ⟨w, hw, ?_⟩
  obtain ⟨h1, h2, h3, h4, h5⟩ := mono_place a.src p.sx p.sy
  have := hb _ _ h3 h4
  rw [h5, h1, h2] at this
  rw [this]
  show (peek s.epoch m _).getLsbD _ = _
  rw [hm _ (.inr ⟨p, hp, by simp only [srcBytes, hf]; rw [← h1]; exact wordBytes_mem h3⟩)]
  rfl

theorem monoBit_source {s : State} {a : BlitArgs} {m : Memory} (h : touchable s a = true) {p : Px}
    (hp : p ∈ visited s a) (hf : a.src.format = .mono1) (hm : sourceKept s a m) :
    monoBit (pixEnv s) m a.src p.sx p.sy = .ok (monoPixel s a.src p.sx p.sy) := by
  obtain ⟨w, hw, hb⟩ := readWord_source h hp hf hm
  simp only [monoBit, hw, bind, Except.bind, pure, Except.pure, hb]

theorem isPaletteFormat_cases {f : PixelFormat} (h : isPaletteFormat f = true) :
    f = .palette1 ∨ f = .palette2 ∨ f = .palette4 := by
  revert h; cases f <;> simp [isPaletteFormat, PixelFormat.isPalette24]

theorem toNat_ushiftRight_mod (v : Byte) (k n : Nat) :
    (v >>> k).toNat % 2 ^ n = v.toNat / 2 ^ k % 2 ^ n := by
  simp [BitVec.toNat_ushiftRight, Nat.shiftRight_eq_div_pow]

theorem palIndex_source {s : State} {a : BlitArgs} {m : Memory} {p : Px}
    (hf : isPaletteFormat a.src.format = true) (hb : ∀ b ∈ srcBytes a.src p, isBacked s.cfg.backed b = true)
    (hm : ∀ b ∈ srcBytes a.src p, peek s.epoch m b = peek s.epoch s.mem b) :
    palIndex (pixEnv s) m a.src p.sx p.sy = .ok (indexPixel s a.src p.sx p.sy) := by
  have hmem : pixAddr (palByteAddr a.src p.sx p.sy) ∈ srcBytes a.src p := by
    rcases isPaletteFormat_cases hf with h | h | h <;> simp [srcBytes, h]
  have hb' : isBacked (pixEnv s).backed (pixAddr (palByteAddr a.src p.sx p.sy)) = true := hb _ hmem
  simp only [palIndex, readByte_of_backed hb', bind, Except.bind, pure, Except.pure, toNat_ushiftRight_mod]
  have : peek (pixEnv s).epoch m (pixAddr (palByteAddr a.src p.sx p.sy))
      = byteAt s (palByteAddr a.src p.sx p.sy) := hm _ hmem
  rw [this]
  simp only [indexPixel, palShift, palByteAddr, pixEnv]
  by_cases h : s.cfg.palMsbFirst = true <;> simp [h]

theorem bpp_palette {f : PixelFormat} (h : isPaletteFormat f = true) : bpp f = 1 ∨ bpp f = 2 ∨ bpp f = 4 := by
  rcases isPaletteFormat_cases h with rfl | rfl | rfl <;> simp [bpp]

theorem indexPixel_lt (s : State) (b : Bitmap) (x y : Int) : indexPixel s b x y < 2 ^ bpp b.format :=
  Nat.mod_lt _ (Nat.two_pow_pos _)

theorem mem_paletteBytes {b : Bitmap} (hf : isPaletteFormat b.format = true) {i : Nat} (hi : i < 2 ^ bpp b.format) :
    pixAddr (b.palette + i) ∈ paletteBytes b := by
  rcases isPaletteFormat_cases hf with h | h | h <;>
    · simp only [paletteBytes, h, List.mem_map, List.mem_range]
      rw [h] at hi
      exact ⟨i, hi, rfl⟩

theorem palColor_source {s : State} {a : BlitArgs} {m : Memory} (hf : isPaletteFormat a.src.format = true)
    (hb : ∀ b ∈ paletteBytes a.src, isBacked s.cfg.backed b = true)
    (hm : ∀ b ∈ paletteBytes a.src, peek s.epoch m b = peek s.epoch s.mem b) {i : Nat}
    (hi : i < 2 ^ bpp a.src.format) :
    palColor (pixEnv s) m a.src i = .ok (byteAt s (a.src.palette + i)) := by
  have hmem := mem_paletteBytes hf hi
  have hb' : isBacked (pixEnv s).backed (pixAddr (a.src.palette + i)) = true := hb _ hmem
  rw [palColor, readByte_of_backed hb']
  congr 1
  exact hm _ hmem

/-! ### Writing a destination pixel -/

/-- A pixel of an 8-bit destination: where every read succeeds, its byte takes the painted value, every other byte is
kept, and the source reads as before. -/
theorem bytePixel {s : State} {a : BlitArgs} {p : Px} {m : Memory} {v : Color}
    (ha : touchable s a = true) (hp : p ∈ visited s a) (hd : a.dst.format.isEightBit = true)
    (hm : sourceKept s a m) :
    ∃ m', writeByte (pixEnv s) m (dstAddr a.dst p) v = .ok m' ∧ sourceKept s a m'
      ∧ ∀ b, peek s.epoch m' b
          = if pixAddr (colorByte s.cfg.rowtab a.dst p.dx p.dy) = b then v else peek s.epoch m b := by
  have hne : a.dst.format ≠ .mono1 := by intro h; rw [h] at hd; cases hd
  have haddr : dstAddr a.dst p = colorByte s.cfg.rowtab a.dst p.dx p.dy := by
    rw [dstAddr, if_neg hne]; exact (mem_visited hp (.inr hd)).2.2.2.2.1 hne
  have hmem : pixAddr (dstAddr a.dst p) ∈ dstBytes a.dst p := by simp [dstBytes, hne]
  refine ⟨_, writeByte_of_backed _ (backed_dst ha hp hmem), ?_, ?_⟩
  · intro b hb
    rw [peek_memSet, if_neg, hm b hb]
    rintro rfl
    exact not_sourceByte (apart_of_touchable ha) hp hmem hb
  · intro b
    rw [peek_memSet, haddr]
    simp only [eq_comm]

/-- A pixel of a Mono1 destination: where its word is written back with the pixel's bit changed alone, its bit takes
the painted value, every other bit of PIXMEM is kept, and the source reads as before. -/
theorem bitPixel {s : State} {a : BlitArgs} {p : Px} {m : Memory} (paint : Bool → Bool) (new : Word → Word)
    (ha : touchable s a = true) (hp : p ∈ visited s a) (hd : a.dst.format = .mono1) (hm : sourceKept s a m)
    (hnew : ∀ (d : Word) (i : Nat), i < 32 →
      (new d).getLsbD i = if i = (p.dx % 32).toNat then paint (d.getLsbD i) else d.getLsbD i) :
    ∃ d m', readWord (pixEnv s) m (dstAddr a.dst p) = .ok d
      ∧ writeWord (pixEnv s) m (dstAddr a.dst p) (new d) = .ok m' ∧ sourceKept s a m'
      ∧ ∀ x : Nat × Nat, x.2 < 8 → (peek s.epoch m' x.1).getLsbD x.2
          = if pixAddr (monoByte a.dst p.dx p.dy) = x.1 ∧ (p.dx % 8).toNat = x.2
            then paint ((peek s.epoch m x.1).getLsbD x.2) else (peek s.epoch m x.1).getLsbD x.2 := by
  have haddr : dstAddr a.dst p = monoWordAddr a.dst (p.dx / 32) p.dy := by rw [dstAddr, if_pos hd]
  have hbk : ∀ t : Nat, t < 4 → isBacked (pixEnv s).backed (pixAddr (dstAddr a.dst p + t)) = true := fun t ht =>
    backed_dst ha hp (by simp only [dstBytes, hd, if_true]; exact wordBytes_mem ht)
  obtain ⟨d, hdw, hdb⟩ := readWord_of_backed (m := m) hbk
  obtain ⟨m', hw, hin, hout⟩ := writeWord_of_backed (m := m) (new d) hbk
  refine ⟨d, m', hdw, hw, ?_, ?_⟩
  · intro b hb
    rw [hout, hm b hb]
    rintro t ht rfl
    exact not_sourceByte (apart_of_touchable ha) hp
      (by simp only [dstBytes, hd, if_true]; exact wordBytes_mem ht) hb
  · rintro ⟨b, k⟩ hk
    obtain ⟨h1, h2, h3, h4, h5⟩ := mono_place a.dst p.dx p.dy
    by_cases hb : ∃ t : Nat, t < 4 ∧ b = pixAddr (dstAddr a.dst p + t)
    · obtain ⟨t, ht, rfl⟩ := hb
      simp only at hk ⊢
      rw [hin _ t ht]
      have : ((new d).extractLsb' (8 * t) 8).getLsbD k = (new d).getLsbD (8 * t + k) := by
        simp [hk]
      rw [this, hnew d _ (by omega), hdb t k ht hk]
      have hiff : (8 * t + k = (p.dx % 32).toNat)
          ↔ (pixAddr (monoByte a.dst p.dx p.dy) = pixAddr (dstAddr a.dst p + t) ∧ (p.dx % 8).toNat = k) := by
        rw [← h1, haddr]
        constructor
        · intro h
          have : t = (p.dx % 32).toNat / 8 := by omega
          subst this
          exact ⟨rfl, by omega⟩
        · rintro ⟨e1, e2⟩
          have := pixAddr_add_inj (by omega) (by omega) e1
          omega
      by_cases h : 8 * t + k = (p.dx % 32).toNat
      · rw [if_pos h, if_pos (hiff.1 h)]; rfl
      · rw [if_neg h, if_neg (fun h' => h (hiff.2 h'))]; rfl
    · have hb' : ∀ t : Nat, t < 4 → b ≠ pixAddr (dstAddr a.dst p + t) := fun t ht h => hb ⟨t, ht, h⟩
      simp only
      rw [hout _ b hb', if_neg]
      rintro ⟨e1, _⟩
      refine hb' _ h3 ?_
      rw [haddr, h1]
      exact e1.symm

end Sys2Proof.Machine
end

