-- ==== Sys2Proof/Laws/Routines.lean ====
section
/-! SUPPORT. What the loop of each routine leaves where its bytes may be touched: the painted bytes or bits (42 R181, 43 R204,
44 R221, 45 R242, 46 R261). -/

namespace Sys2Proof.Machine

theorem paintedByte_of_missed {tab : List RowEntry} {dst : Bitmap} {paint : Px → Color → Color} {px : List Px} {b : Nat}
    {old : Color} (h : ∀ p ∈ px, pixAddr (colorByte tab dst p.dx p.dy) ≠ b) :
    paintedByte tab dst paint px b old = old := by
  unfold paintedByte
  induction px generalizing old with
  | nil => rfl
  | cons q qs ih =>
    rw [List.foldl_cons, if_neg (h q (List.mem_cons_self ..))]
    exact ih fun p hp => h p (List.mem_cons_of_mem _ hp)

theorem paintedBit_of_missed {dst : Bitmap} {paint : Px → Bool → Bool} {px : List Px} {b k : Nat} {old : Bool}
    (h : ∀ p ∈ px, pixAddr (monoByte dst p.dx p.dy) ≠ b ∨ (p.dx % 8).toNat ≠ k) :
    paintedBit dst paint px b k old = old := by
  unfold paintedBit
  induction px generalizing old with
  | nil => rfl
  | cons q qs ih =>
    rw [List.foldl_cons, if_neg]
    · exact ih fun p hp => h p (List.mem_cons_of_mem _ hp)
    · rintro ⟨h1, h2⟩
      rcases h q (List.mem_cons_self ..) with h' | h'
      · exact h' h1
      · exact h' h2

/-- A loop whose every pixel paints its own byte. -/
theorem runPixels_bytes {s : State} {a : BlitArgs} {f : Px → Memory → Except Stop Memory}
    {paint : Px → Color → Color}
    (hf : ∀ p ∈ visited s a, ∀ m, sourceKept s a m → ∃ m', f p m = .ok m' ∧ sourceKept s a m'
      ∧ ∀ b, peek s.epoch m' b = if pixAddr (colorByte s.cfg.rowtab a.dst p.dx p.dy) = b
          then paint p (peek s.epoch m b) else peek s.epoch m b) :
    ∃ m, runPixels f (visited s a) s.mem = .ok m ∧ bytesPainted a paint s m := by
  obtain ⟨m, h1, _, h3⟩ := runPixels_fold (Good := sourceKept s a) (view := peek s.epoch)
    (upd := fun p b d => if pixAddr (colorByte s.cfg.rowtab a.dst p.dx p.dy) = b then paint p d else d) hf
    (fun b _ => rfl)
  exact ⟨m, h1, h3, fun b hb => by rw [h3]; exact paintedByte_of_missed hb⟩

/-- A loop whose every pixel paints its own bit. -/
theorem runPixels_bits {s : State} {a : BlitArgs} {f : Px → Memory → Except Stop Memory}
    {paint : Px → Bool → Bool}
    (hf : ∀ p ∈ visited s a, ∀ m, sourceKept s a m → ∃ m', f p m = .ok m' ∧ sourceKept s a m'
      ∧ ∀ x : Nat × Nat, x.2 < 8 → (peek s.epoch m' x.1).getLsbD x.2
          = if pixAddr (monoByte a.dst p.dx p.dy) = x.1 ∧ (p.dx % 8).toNat = x.2
            then paint p ((peek s.epoch m x.1).getLsbD x.2) else (peek s.epoch m x.1).getLsbD x.2) :
    ∃ m, runPixels f (visited s a) s.mem = .ok m ∧ bitsPainted a paint s m := by
  obtain ⟨m, h1, _, h3⟩ := runPixels_fold (Good := sourceKept s a)
    (view := fun m (x : Nat × Fin 8) => (peek s.epoch m x.1).getLsbD x.2)
    (upd := fun p x d => if pixAddr (monoByte a.dst p.dx p.dy) = x.1 ∧ (p.dx % 8).toNat = x.2 then paint p d else d)
    (fun p hp m hm => by
      obtain ⟨m', e1, e2, e3⟩ := hf p hp m hm
      exact ⟨m', e1, e2, fun x => e3 (x.1, x.2) x.2.isLt⟩)
    (fun b _ => rfl)
  have h3' : ∀ b k, k < 8 → (peek s.epoch m b).getLsbD k
      = paintedBit a.dst paint (visited s a) b k ((peek s.epoch s.mem b).getLsbD k) :=
    fun b k hk => h3 (b, ⟨k, hk⟩)
  refine ⟨m, h1, h3', fun b k hb => ?_⟩
  by_cases hk : k < 8
  · rw [h3' b k hk]; exact paintedBit_of_missed hb
  · rw [BitVec.getLsbD_of_ge _ _ (by omega), BitVec.getLsbD_of_ge _ _ (by omega)]

/-- The pixels of M1C8 (46_mono1_to_color8 R261). -/
theorem m1c8_painted {s : State} {a : BlitArgs} {expand : Expand} (paint : Bool → Color → Color)
    (ht : touchable s a = true) (hd : a.dst.format.isEightBit = true) (hs : a.src.format = .mono1)
    (hx : ∀ bit d, (expand bit).getD d = paint bit d) :
    ∃ m, runPixels (m1c8Pixel expand (pixEnv s) a) (visited s a) s.mem = .ok m
      ∧ bytesPainted a (fun p d => paint (monoPixel s a.src p.sx p.sy) d) s m := by
  refine runPixels_bytes fun p hp m hm => ?_
  simp only [m1c8Pixel, monoBit_source ht hp hs hm, bind, Except.bind, pure, Except.pure]
  cases h : expand (monoPixel s a.src p.sx p.sy) with
  | none => exact ⟨m, rfl, hm, fun b => by rw [← hx, h]; simp⟩
  | some c =>
    obtain ⟨m', h1, h2, h3⟩ := bytePixel (v := c) ht hp hd hm
    exact ⟨m', h1, h2, fun b => by rw [h3, ← hx, h]; rfl⟩

/-- A way of combining that paints the byte it is given (44_palette_to_color8 R222). -/
def paintsAs (combine : Combine) (paint : Color → Color → Color) : Prop :=
  ∀ (e : PixEnv) (c : Color) (x : Int) (m : Memory), isBacked e.backed (pixAddr x) = true →
    combine e c x m = writeByte e m x (paint c (peek e.epoch m (pixAddr x)))

theorem combineCopy_paints : paintsAs combineCopy fun c _ => c := fun _ _ _ _ _ => rfl

theorem combineBlend_paints (lib : ColorLib) (f : Color → Color) :
    paintsAs (combineBlend lib f) fun c d => lib.alphaBlend (f c) d := by
  intro e c x m h
  simp only [combineBlend, readByte_of_backed h, bind, Except.bind]

theorem combine_pixel {s : State} {a : BlitArgs} {p : Px} {m : Memory} {combine : Combine}
    {paint : Color → Color → Color} {c : Color} (hc : paintsAs combine paint) (ht : touchable s a = true)
    (hp : p ∈ visited s a) (hd : a.dst.format.isEightBit = true) (hm : sourceKept s a m) :
    ∃ m', combine (pixEnv s) c (dstAddr a.dst p) m = .ok m' ∧ sourceKept s a m'
      ∧ ∀ b, peek s.epoch m' b = if pixAddr (colorByte s.cfg.rowtab a.dst p.dx p.dy) = b
          then paint c (peek s.epoch m b) else peek s.epoch m b := by
  have hne : a.dst.format ≠ .mono1 := by intro h; rw [h] at hd; cases hd
  have haddr : dstAddr a.dst p = colorByte s.cfg.rowtab a.dst p.dx p.dy := by
    rw [dstAddr, if_neg hne]; exact (mem_visited hp (.inr hd)).2.2.2.2.1 hne
  have hmem : pixAddr (dstAddr a.dst p) ∈ dstBytes a.dst p := by simp [dstBytes, hne]
  rw [hc _ _ _ _ (backed_dst ht hp hmem)]
  obtain ⟨m', h1, h2, h3⟩ := bytePixel
    (v := paint c (peek (pixEnv s).epoch m (pixAddr (dstAddr a.dst p)))) ht hp hd hm
  refine ⟨m', h1, h2, fun b => ?_⟩
  rw [h3]
  split
  · rename_i hb; rw [haddr, hb]; rfl
  · rfl

/-- The pixels of C8C8 (45_color8_to_color8 R242). -/
theorem c8c8_painted {s : State} {a : BlitArgs} {combine : Combine} {paint : Color → Color → Color}
    (hc : paintsAs combine paint) (ht : touchable s a = true) (hd : a.dst.format.isEightBit = true)
    (hs : a.src.format.isEightBit = true) :
    ∃ m, runPixels (c8c8Pixel combine (pixEnv s) a) (visited s a) s.mem = .ok m
      ∧ bytesPainted a (fun p d => paint (colorPixel s a.src p.sx p.sy) d) s m := by
  refine runPixels_bytes fun p hp m hm => ?_
  have hmem : pixAddr (p.srcPtr + p.sx) ∈ srcBytes a.src p := by
    revert hs; cases h : a.src.format <;> simp [PixelFormat.isEightBit, srcBytes, h]
  have hb : isBacked (pixEnv s).backed (pixAddr (p.srcPtr + p.sx)) = true := backed_src ht hp hmem
  have hv : peek (pixEnv s).epoch m (pixAddr (p.srcPtr + p.sx)) = colorPixel s a.src p.sx p.sy := by
    rw [colorPixel, ← (mem_visited hp (.inr hd)).2.2.2.2.2.1 hs]
    exact hm _ (.inr ⟨p, hp, hmem⟩)
  simp only [c8c8Pixel, readByte_of_backed hb, bind, Except.bind, hv]
  exact combine_pixel hc ht hp hd hm

theorem paletteOf_touchable {s : State} {a : BlitArgs} {m : Memory} (ht : touchable s a = true)
    (hs : isPaletteFormat a.src.format = true) (hm : sourceKept s a m) {p : Px} (hp : p ∈ visited s a) :
    palIndex (pixEnv s) m a.src p.sx p.sy = .ok (indexPixel s a.src p.sx p.sy)
      ∧ palColor (pixEnv s) m a.src (indexPixel s a.src p.sx p.sy) = .ok (palettePixel s a.src p.sx p.sy) :=
  ⟨palIndex_source hs (fun _ hb => backed_src ht hp hb) (fun _ hb => hm _ (.inr ⟨p, hp, hb⟩)),
    palColor_source hs (fun _ hb => backed_palette ht hb) (fun _ hb => hm _ (.inl hb)) (indexPixel_lt ..)⟩

/-- The pixels of PALC8 (44_palette_to_color8 R221). -/
theorem palc8_painted {s : State} {a : BlitArgs} {combine : Combine} {paint : Color → Color → Color}
    (hc : paintsAs combine paint) (ht : touchable s a = true) (hd : a.dst.format.isEightBit = true)
    (hs : isPaletteFormat a.src.format = true) :
    ∃ m, runPixels (palc8Pixel combine (pixEnv s) a) (visited s a) s.mem = .ok m
      ∧ bytesPainted a (fun p d => paint (palettePixel s a.src p.sx p.sy) d) s m := by
  refine runPixels_bytes fun p hp m hm => ?_
  obtain ⟨h1, h2⟩ := paletteOf_touchable ht hs hm hp
  simp only [palc8Pixel, h1, h2, bind, Except.bind]
  exact combine_pixel hc ht hp hd hm

/-- A word form that works bit by bit inside the mask (42_mono1_to_mono1 R182). -/
def formIs (form : WordForm) (f : Bool → Bool → Bool) : Prop :=
  ∀ (d s m : Word) (i : Nat), i < 32 →
    (form d s m).getLsbD i = if m.getLsbD i then f (d.getLsbD i) (s.getLsbD i) else d.getLsbD i

theorem m1m1AssignForm_is : formIs m1m1AssignForm fun _ s => s := by
  intro d s m i hi
  simp only [m1m1AssignForm, BitVec.getLsbD_or, BitVec.getLsbD_and, BitVec.getLsbD_not, hi, decide_true]
  cases m.getLsbD i <;> simp

theorem m1m1AssignInvertedForm_is : formIs m1m1AssignInvertedForm fun _ s => !s := by
  intro d s m i hi
  simp only [m1m1AssignInvertedForm, BitVec.getLsbD_xor, BitVec.getLsbD_and, BitVec.getLsbD_not, hi, decide_true]
  cases m.getLsbD i <;> cases d.getLsbD i <;> cases s.getLsbD i <;> rfl

theorem m1m1OrForm_is : formIs m1m1OrForm fun d s => d || s := by
  intro d s m i hi
  simp only [m1m1OrForm, BitVec.getLsbD_or, BitVec.getLsbD_and]
  cases m.getLsbD i <;> simp

theorem m1m1AndForm_is : formIs m1m1AndForm fun d s => d && s := by
  intro d s m i hi
  simp only [m1m1AndForm, BitVec.getLsbD_or, BitVec.getLsbD_and, BitVec.getLsbD_not, hi, decide_true]
  cases m.getLsbD i <;> simp

theorem m1m1ClearForm_is : formIs m1m1ClearForm fun d s => d && !s := by
  intro d s m i hi
  simp only [m1m1ClearForm, BitVec.getLsbD_and, BitVec.getLsbD_not, hi, decide_true]
  cases m.getLsbD i <;> simp

theorem m1m1SetForm_is : formIs m1m1SetForm fun d s => d || !s := by
  intro d s m i hi
  simp only [m1m1SetForm, BitVec.getLsbD_or, BitVec.getLsbD_and, BitVec.getLsbD_not, hi, decide_true]
  cases m.getLsbD i <;> simp

/-- The pixels of M1M1 (42_mono1_to_mono1 R181). -/
theorem m1m1_painted {s : State} {a : BlitArgs} {form : WordForm} {f : Bool → Bool → Bool} (hf : formIs form f)
    (ht : touchable s a = true) (hd : a.dst.format = .mono1) (hs : a.src.format = .mono1) :
    ∃ m, runPixels (m1m1Pixel form (pixEnv s) a) (visited s a) s.mem = .ok m
      ∧ bitsPainted a (fun p d => f d (monoPixel s a.src p.sx p.sy)) s m := by
  refine runPixels_bits fun p hp m hm => ?_
  obtain ⟨w, hw, hbit⟩ := readWord_source ht hp hs hm
  obtain ⟨d, m', h1, h2, h3, h4⟩ := bitPixel (fun d => f d (monoPixel s a.src p.sx p.sy))
    (fun d => form d (rotl32 w (alignRotation p.dx p.sx)) (maskBits 1 (p.dx % 32).toNat)) ht hp hd hm (by
      intro d i hi
      rw [hf _ _ _ i hi, getLsbD_maskBits hi]
      have : (decide ((p.dx % 32).toNat ≤ i) && decide (i < (p.dx % 32).toNat + 1))
          = decide (i = (p.dx % 32).toNat) := by
        rw [← Bool.decide_and]; congr 1; simp only [eq_iff_iff]; omega
      rw [this]
      by_cases h : i = (p.dx % 32).toNat
      · simp only [h, decide_true, if_true]
        congr 1
        have := getLsbD_rotl32_align w (j := (p.dx % 32).toNat) (k := (p.sx % 32).toNat) (by omega) (by omega)
        rw [hbit] at this
        rw [← this, alignRotation]
        congr 3; omega
      · simp [h])
  refine ⟨m', ?_, h3, h4⟩
  simp only [m1m1Pixel, hw, h1, h2, bind, Except.bind]

/-- The table PALM1 builds, entry by entry (43_palette_to_mono1 R202). -/
theorem ditherTable_of_backed {lib : ColorLib} {recolor : Color → Color} {s : State} {b : Bitmap}
    (hf : isPaletteFormat b.format = true) (hb : ∀ x ∈ paletteBytes b, isBacked s.cfg.backed x = true) {i n : Nat}
    (hn : i + n ≤ 2 ^ bpp b.format) :
    ∃ t, ditherTable lib recolor (pixEnv s) s.mem b i n = .ok t
      ∧ ∀ k, k < n → t[k]? = some (ditherEntry lib (recolor (byteAt s (b.palette + (i + k : Nat))))) := by
  induction n generalizing i with
  | zero => exact ⟨[], rfl, fun k hk => by omega⟩
  | succ n ih =>
    obtain ⟨t, h1, h2⟩ := ih (i := i + 1) (by omega)
    have hc : palColor (pixEnv s) s.mem b i = .ok (byteAt s (b.palette + i)) := by
      have hb' : isBacked (pixEnv s).backed (pixAddr (b.palette + i)) = true := hb _ (mem_paletteBytes hf (by omega))
      rw [palColor, readByte_of_backed hb']; rfl
    refine ⟨ditherEntry lib (recolor (byteAt s (b.palette + i))) :: t, ?_, ?_⟩
    · simp only [ditherTable, hc, h1, bind, Except.bind, pure, Except.pure]
    · intro k hk
      cases k with
      | zero => simp
      | succ k =>
        rw [List.getElem?_cons_succ, h2 k (by omega)]
        rw [show i + 1 + k = i + (k + 1) by omega]

/-- The pattern bit of a grey at a column (43_palette_to_mono1 R203). -/
theorem ditherPattern_bit (lib : ColorLib) (c : Color) (x y : Int) :
    (ditherPattern (ditherEntry lib c) y).getLsbD (x % 32).toNat = ditheredBit lib (lib.grayscale c) x y := by
  have hall : ∀ j : Fin 32, (0xFFFFFFFF : Word).getLsbD j = true ∧ (0x00000000 : Word).getLsbD j = false
      ∧ (0xAAAAAAAA : Word).getLsbD j = decide (j.val % 2 = 1)
      ∧ (0x55555555 : Word).getLsbD j = decide (j.val % 2 = 0) := by decide
  obtain ⟨h1, h2, h3, h4⟩ := hall ⟨(x % 32).toNat, by omega⟩
  simp only [ditherPattern, ditherEntry, dither, ditheredBit, white, black]
  simp only at h1 h2 h3 h4
  by_cases hw : lib.equal (lib.grayscale c) (0xFF : Color) = true
  · simp only [hw, if_true, ite_self]; exact h1
  · by_cases hb : lib.equal (lib.grayscale c) (0xC0 : Color) = true
    · simp only [hw, hb, if_true, if_false, ite_self, Bool.false_eq_true]; exact h2
    · simp only [hw, hb, if_false, Bool.false_eq_true]
      split
      · rw [h3]; congr 1; simp only [eq_iff_iff]; omega
      · rw [h4]; congr 1; simp only [eq_iff_iff]; omega

/-- The pixels of PALM1 with a permitted operator (43_palette_to_mono1 R204). -/
theorem palm1_painted {lib : ColorLib} {recolor : Color → Color} {s : State} {a : BlitArgs}
    (ht : touchable s a = true) (hd : a.dst.format = .mono1) (hs : isPaletteFormat a.src.format = true) :
    ∃ t m, ditherTable lib recolor (pixEnv s) s.mem a.src 0 (2 ^ bpp a.src.format) = .ok t
      ∧ runPixels (palm1Pixel t (pixEnv s) a) (visited s a) s.mem = .ok m
      ∧ bitsPainted a (fun p d =>
          let g := lib.grayscale (recolor (palettePixel s a.src p.sx p.sy))
          if alpha g = 0 then d else ditheredBit lib g p.dx p.dy) s m := by
  obtain ⟨t, h1, h2⟩ := ditherTable_of_backed (lib := lib) (recolor := recolor) (s := s) (i := 0) hs
    (fun x hx => backed_palette ht hx) (Nat.le_of_eq (Nat.zero_add _))
  suffices h : ∃ m, runPixels (palm1Pixel t (pixEnv s) a) (visited s a) s.mem = .ok m
      ∧ bitsPainted a (fun p d =>
          let g := lib.grayscale (recolor (palettePixel s a.src p.sx p.sy))
          if alpha g = 0 then d else ditheredBit lib g p.dx p.dy) s m by
    obtain ⟨m, h3, h4⟩ := h; exact ⟨t, m, h1, h3, h4⟩
  refine runPixels_bits fun p hp m hm => ?_
  obtain ⟨hi, _⟩ := paletteOf_touchable ht hs hm hp
  have hent : t.getD (indexPixel s a.src p.sx p.sy) default
      = ditherEntry lib (recolor (palettePixel s a.src p.sx p.sy)) := by
    have := h2 _ (indexPixel_lt s a.src p.sx p.sy)
    rw [List.getD_eq_getElem?_getD, this, Nat.zero_add]; rfl
  obtain ⟨d, m', e1, e2, e3, e4⟩ := bitPixel
    (fun d =>
      let g := lib.grayscale (recolor (palettePixel s a.src p.sx p.sy))
      if alpha g = 0 then d else ditheredBit lib g p.dx p.dy)
    (fun d =>
      let t := ditherEntry lib (recolor (palettePixel s a.src p.sx p.sy))
      let mask := if t.transparent then 0 else maskBits 1 (p.dx % 32).toNat
      (d &&& ~~~mask) ||| (ditherPattern t p.dy &&& mask)) ht hp hd hm (by
      intro d i hi
      have hpat := ditherPattern_bit lib (recolor (palettePixel s a.src p.sx p.sy)) p.dx p.dy
      have htr : (ditherEntry lib (recolor (palettePixel s a.src p.sx p.sy))).transparent
          = decide (alpha (lib.grayscale (recolor (palettePixel s a.src p.sx p.sy))) = 0) := by
        rfl
      simp only [htr, decide_eq_true_eq]
      by_cases hg : alpha (lib.grayscale (recolor (palettePixel s a.src p.sx p.sy))) = 0
      · simp only [hg, if_true, BitVec.getLsbD_or, BitVec.getLsbD_and, BitVec.getLsbD_not, hi]
        simp
      · simp only [hg, if_false, BitVec.getLsbD_or, BitVec.getLsbD_and, BitVec.getLsbD_not, hi, decide_true,
          Bool.true_and, getLsbD_maskBits hi]
        by_cases h : i = (p.dx % 32).toNat
        · subst h; simp [hpat]
        · have : ¬ ((p.dx % 32).toNat ≤ i ∧ i < (p.dx % 32).toNat + 1) := by omega
          have h' : (decide ((p.dx % 32).toNat ≤ i) && decide (i < (p.dx % 32).toNat + 1)) = false := by
            rw [← Bool.decide_and]; simpa using this
          rw [h', if_neg h]; simp)
  refine ⟨m', ?_, e3, e4⟩
  simp only [palm1Pixel, hi, hent, bind, Except.bind, e1]
  exact e2

/-! ### How the loop ends -/

theorem runs_iff {s : State} {a : BlitArgs} :
    runs s a = true ↔ (blitPlan s.cfg.rowtab a).stop = none ∧ touchable s a = true := by
  simp [runs]

theorem runsOffTable_iff {s : State} {a : BlitArgs} : runsOffTable s a = true ↔
    (blitPlan s.cfg.rowtab a).stop = some (.fatal .rowIndexOutOfBounds) ∧ touchable s a = true := by
  simp [runsOffTable]

theorem runBlit_ok {s : State} {a : BlitArgs} {f : Px → Memory → Except Stop Memory} {m : Memory}
    (h : runs s a = true) (hm : runPixels f (visited s a) s.mem = .ok m) :
    runBlit f a s = .next (endedOk s m) := by
  obtain ⟨hs, ht⟩ := runs_iff.1 h
  rw [runBlit_of_run (apart_of_touchable ht) hm, hs, endRows, endOk_setMem]

theorem runBlit_offTable {s : State} {a : BlitArgs} {f : Px → Memory → Except Stop Memory} {m : Memory}
    (h : runsOffTable s a = true) (hm : runPixels f (visited s a) s.mem = .ok m) :
    runBlit f a s = .next (endedHalt s m 1) := by
  obtain ⟨hs, ht⟩ := runsOffTable_iff.1 h
  rw [runBlit_of_run (apart_of_touchable ht) hm, hs, endRows, raiseFatal_setMem]; rfl

end Sys2Proof.Machine
end

