-- ==== Sys2Proof/Laws/State.lean ====
section
/-! SUPPORT. One lemma for each field of the state and each named update of it. -/

namespace Sys2Proof.Machine

@[simp] theorem setMem_arg0 (s : State) (m : Memory) : (setMem s m).arg0 = s.arg0 := rfl
@[simp] theorem setMem_srcAddr (s : State) (m : Memory) : (setMem s m).srcAddr = s.srcAddr := rfl
@[simp] theorem setMem_srcFmt (s : State) (m : Memory) : (setMem s m).srcFmt = s.srcFmt := rfl
@[simp] theorem setMem_srcOrg (s : State) (m : Memory) : (setMem s m).srcOrg = s.srcOrg := rfl
@[simp] theorem setMem_srcSize (s : State) (m : Memory) : (setMem s m).srcSize = s.srcSize := rfl
@[simp] theorem setMem_srcPal (s : State) (m : Memory) : (setMem s m).srcPal = s.srcPal := rfl
@[simp] theorem setMem_dstAddr (s : State) (m : Memory) : (setMem s m).dstAddr = s.dstAddr := rfl
@[simp] theorem setMem_dstFmt (s : State) (m : Memory) : (setMem s m).dstFmt = s.dstFmt := rfl
@[simp] theorem setMem_dstOrg (s : State) (m : Memory) : (setMem s m).dstOrg = s.dstOrg := rfl
@[simp] theorem setMem_dstSize (s : State) (m : Memory) : (setMem s m).dstSize = s.dstSize := rfl
@[simp] theorem setMem_rectOrg (s : State) (m : Memory) : (setMem s m).rectOrg = s.rectOrg := rfl
@[simp] theorem setMem_rectSize (s : State) (m : Memory) : (setMem s m).rectSize = s.rectSize := rfl
@[simp] theorem setMem_offs (s : State) (m : Memory) : (setMem s m).offs = s.offs := rfl
@[simp] theorem setMem_ctrl (s : State) (m : Memory) : (setMem s m).ctrl = s.ctrl := rfl
@[simp] theorem setMem_status (s : State) (m : Memory) : (setMem s m).status = s.status := rfl
@[simp] theorem setMem_errlog (s : State) (m : Memory) : (setMem s m).errlog = s.errlog := rfl
@[simp] theorem setMem_res0 (s : State) (m : Memory) : (setMem s m).res0 = s.res0 := rfl
@[simp] theorem setMem_res1 (s : State) (m : Memory) : (setMem s m).res1 = s.res1 := rfl
@[simp] theorem setMem_res2 (s : State) (m : Memory) : (setMem s m).res2 = s.res2 := rfl
@[simp] theorem setMem_fbDirtyOrg (s : State) (m : Memory) : (setMem s m).fbDirtyOrg = s.fbDirtyOrg := rfl
@[simp] theorem setMem_fbDirtySize (s : State) (m : Memory) : (setMem s m).fbDirtySize = s.fbDirtySize := rfl
@[simp] theorem setMem_fbFlags (s : State) (m : Memory) : (setMem s m).fbFlags = s.fbFlags := rfl
@[simp] theorem setMem_fbCursor (s : State) (m : Memory) : (setMem s m).fbCursor = s.fbCursor := rfl
@[simp] theorem setMem_mem (s : State) (m : Memory) : (setMem s m).mem = m := rfl
@[simp] theorem setMem_rowOut (s : State) (m : Memory) : (setMem s m).rowOut = s.rowOut := rfl
@[simp] theorem setMem_cfg (s : State) (m : Memory) : (setMem s m).cfg = s.cfg := rfl
@[simp] theorem setMem_inbox (s : State) (m : Memory) : (setMem s m).inbox = s.inbox := rfl
@[simp] theorem setMem_readData (s : State) (m : Memory) : (setMem s m).readData = s.readData := rfl
@[simp] theorem setMem_epoch (s : State) (m : Memory) : (setMem s m).epoch = s.epoch := rfl

@[simp] theorem endOk_arg0 (s : State) : (endOk s).arg0 = s.arg0 := rfl
@[simp] theorem endOk_srcAddr (s : State) : (endOk s).srcAddr = s.srcAddr := rfl
@[simp] theorem endOk_srcFmt (s : State) : (endOk s).srcFmt = s.srcFmt := rfl
@[simp] theorem endOk_srcOrg (s : State) : (endOk s).srcOrg = s.srcOrg := rfl
@[simp] theorem endOk_srcSize (s : State) : (endOk s).srcSize = s.srcSize := rfl
@[simp] theorem endOk_srcPal (s : State) : (endOk s).srcPal = s.srcPal := rfl
@[simp] theorem endOk_dstAddr (s : State) : (endOk s).dstAddr = s.dstAddr := rfl
@[simp] theorem endOk_dstFmt (s : State) : (endOk s).dstFmt = s.dstFmt := rfl
@[simp] theorem endOk_dstOrg (s : State) : (endOk s).dstOrg = s.dstOrg := rfl
@[simp] theorem endOk_dstSize (s : State) : (endOk s).dstSize = s.dstSize := rfl
@[simp] theorem endOk_rectOrg (s : State) : (endOk s).rectOrg = s.rectOrg := rfl
@[simp] theorem endOk_rectSize (s : State) : (endOk s).rectSize = s.rectSize := rfl
@[simp] theorem endOk_offs (s : State) : (endOk s).offs = s.offs := rfl
@[simp] theorem endOk_ctrl (s : State) : (endOk s).ctrl = s.ctrl := rfl
@[simp] theorem endOk_status (s : State) : (endOk s).status = withCode s.status .ok := rfl
@[simp] theorem endOk_errlog (s : State) : (endOk s).errlog = s.errlog := rfl
@[simp] theorem endOk_res0 (s : State) : (endOk s).res0 = s.res0 := rfl
@[simp] theorem endOk_res1 (s : State) : (endOk s).res1 = s.res1 := rfl
@[simp] theorem endOk_res2 (s : State) : (endOk s).res2 = s.res2 := rfl
@[simp] theorem endOk_fbDirtyOrg (s : State) : (endOk s).fbDirtyOrg = s.fbDirtyOrg := rfl
@[simp] theorem endOk_fbDirtySize (s : State) : (endOk s).fbDirtySize = s.fbDirtySize := rfl
@[simp] theorem endOk_fbFlags (s : State) : (endOk s).fbFlags = s.fbFlags := rfl
@[simp] theorem endOk_fbCursor (s : State) : (endOk s).fbCursor = s.fbCursor := rfl
@[simp] theorem endOk_mem (s : State) : (endOk s).mem = s.mem := rfl
@[simp] theorem endOk_rowOut (s : State) : (endOk s).rowOut = s.rowOut := rfl
@[simp] theorem endOk_cfg (s : State) : (endOk s).cfg = s.cfg := rfl
@[simp] theorem endOk_inbox (s : State) : (endOk s).inbox = s.inbox := rfl
@[simp] theorem endOk_readData (s : State) : (endOk s).readData = s.readData := rfl
@[simp] theorem endOk_epoch (s : State) : (endOk s).epoch = s.epoch := rfl

@[simp] theorem raiseError_arg0 (c : ResultCode) (s : State) : (raiseError c s).arg0 = s.arg0 := rfl
@[simp] theorem raiseError_srcAddr (c : ResultCode) (s : State) : (raiseError c s).srcAddr = s.srcAddr := rfl
@[simp] theorem raiseError_srcFmt (c : ResultCode) (s : State) : (raiseError c s).srcFmt = s.srcFmt := rfl
@[simp] theorem raiseError_srcOrg (c : ResultCode) (s : State) : (raiseError c s).srcOrg = s.srcOrg := rfl
@[simp] theorem raiseError_srcSize (c : ResultCode) (s : State) : (raiseError c s).srcSize = s.srcSize := rfl
@[simp] theorem raiseError_srcPal (c : ResultCode) (s : State) : (raiseError c s).srcPal = s.srcPal := rfl
@[simp] theorem raiseError_dstAddr (c : ResultCode) (s : State) : (raiseError c s).dstAddr = s.dstAddr := rfl
@[simp] theorem raiseError_dstFmt (c : ResultCode) (s : State) : (raiseError c s).dstFmt = s.dstFmt := rfl
@[simp] theorem raiseError_dstOrg (c : ResultCode) (s : State) : (raiseError c s).dstOrg = s.dstOrg := rfl
@[simp] theorem raiseError_dstSize (c : ResultCode) (s : State) : (raiseError c s).dstSize = s.dstSize := rfl
@[simp] theorem raiseError_rectOrg (c : ResultCode) (s : State) : (raiseError c s).rectOrg = s.rectOrg := rfl
@[simp] theorem raiseError_rectSize (c : ResultCode) (s : State) : (raiseError c s).rectSize = s.rectSize := rfl
@[simp] theorem raiseError_offs (c : ResultCode) (s : State) : (raiseError c s).offs = s.offs := rfl
@[simp] theorem raiseError_ctrl (c : ResultCode) (s : State) : (raiseError c s).ctrl = s.ctrl := rfl
@[simp] theorem raiseError_status (c : ResultCode) (s : State) : (raiseError c s).status = withCode s.status c := rfl
@[simp] theorem raiseError_errlog (c : ResultCode) (s : State) : (raiseError c s).errlog = s.errlog ||| logBit c := rfl
@[simp] theorem raiseError_res0 (c : ResultCode) (s : State) : (raiseError c s).res0 = s.res0 := rfl
@[simp] theorem raiseError_res1 (c : ResultCode) (s : State) : (raiseError c s).res1 = s.res1 := rfl
@[simp] theorem raiseError_res2 (c : ResultCode) (s : State) : (raiseError c s).res2 = s.res2 := rfl
@[simp] theorem raiseError_fbDirtyOrg (c : ResultCode) (s : State) : (raiseError c s).fbDirtyOrg = s.fbDirtyOrg := rfl
@[simp] theorem raiseError_fbDirtySize (c : ResultCode) (s : State) :
    (raiseError c s).fbDirtySize = s.fbDirtySize := rfl
@[simp] theorem raiseError_fbFlags (c : ResultCode) (s : State) : (raiseError c s).fbFlags = s.fbFlags := rfl
@[simp] theorem raiseError_fbCursor (c : ResultCode) (s : State) : (raiseError c s).fbCursor = s.fbCursor := rfl
@[simp] theorem raiseError_mem (c : ResultCode) (s : State) : (raiseError c s).mem = s.mem := rfl
@[simp] theorem raiseError_rowOut (c : ResultCode) (s : State) : (raiseError c s).rowOut = s.rowOut := rfl
@[simp] theorem raiseError_cfg (c : ResultCode) (s : State) : (raiseError c s).cfg = s.cfg := rfl
@[simp] theorem raiseError_inbox (c : ResultCode) (s : State) : (raiseError c s).inbox = s.inbox := rfl
@[simp] theorem raiseError_readData (c : ResultCode) (s : State) : (raiseError c s).readData = s.readData := rfl
@[simp] theorem raiseError_epoch (c : ResultCode) (s : State) : (raiseError c s).epoch = s.epoch := rfl

@[simp] theorem raiseFatal_arg0 (c : FatalCause) (s : State) : (raiseFatal c s).arg0 = s.arg0 := rfl
@[simp] theorem raiseFatal_srcAddr (c : FatalCause) (s : State) : (raiseFatal c s).srcAddr = s.srcAddr := rfl
@[simp] theorem raiseFatal_srcFmt (c : FatalCause) (s : State) : (raiseFatal c s).srcFmt = s.srcFmt := rfl
@[simp] theorem raiseFatal_srcOrg (c : FatalCause) (s : State) : (raiseFatal c s).srcOrg = s.srcOrg := rfl
@[simp] theorem raiseFatal_srcSize (c : FatalCause) (s : State) : (raiseFatal c s).srcSize = s.srcSize := rfl
@[simp] theorem raiseFatal_srcPal (c : FatalCause) (s : State) : (raiseFatal c s).srcPal = s.srcPal := rfl
@[simp] theorem raiseFatal_dstAddr (c : FatalCause) (s : State) : (raiseFatal c s).dstAddr = s.dstAddr := rfl
@[simp] theorem raiseFatal_dstFmt (c : FatalCause) (s : State) : (raiseFatal c s).dstFmt = s.dstFmt := rfl
@[simp] theorem raiseFatal_dstOrg (c : FatalCause) (s : State) : (raiseFatal c s).dstOrg = s.dstOrg := rfl
@[simp] theorem raiseFatal_dstSize (c : FatalCause) (s : State) : (raiseFatal c s).dstSize = s.dstSize := rfl
@[simp] theorem raiseFatal_rectOrg (c : FatalCause) (s : State) : (raiseFatal c s).rectOrg = s.rectOrg := rfl
@[simp] theorem raiseFatal_rectSize (c : FatalCause) (s : State) : (raiseFatal c s).rectSize = s.rectSize := rfl
@[simp] theorem raiseFatal_offs (c : FatalCause) (s : State) : (raiseFatal c s).offs = s.offs := rfl
@[simp] theorem raiseFatal_ctrl (c : FatalCause) (s : State) : (raiseFatal c s).ctrl = s.ctrl := rfl
@[simp] theorem raiseFatal_status (c : FatalCause) (s : State) : (raiseFatal c s).status = withFatal s.status c := rfl
@[simp] theorem raiseFatal_errlog (c : FatalCause) (s : State) : (raiseFatal c s).errlog = s.errlog := rfl
@[simp] theorem raiseFatal_res0 (c : FatalCause) (s : State) : (raiseFatal c s).res0 = s.res0 := rfl
@[simp] theorem raiseFatal_res1 (c : FatalCause) (s : State) : (raiseFatal c s).res1 = s.res1 := rfl
@[simp] theorem raiseFatal_res2 (c : FatalCause) (s : State) : (raiseFatal c s).res2 = s.res2 := rfl
@[simp] theorem raiseFatal_fbDirtyOrg (c : FatalCause) (s : State) : (raiseFatal c s).fbDirtyOrg = s.fbDirtyOrg := rfl
@[simp] theorem raiseFatal_fbDirtySize (c : FatalCause) (s : State) :
    (raiseFatal c s).fbDirtySize = s.fbDirtySize := rfl
@[simp] theorem raiseFatal_fbFlags (c : FatalCause) (s : State) : (raiseFatal c s).fbFlags = s.fbFlags := rfl
@[simp] theorem raiseFatal_fbCursor (c : FatalCause) (s : State) : (raiseFatal c s).fbCursor = s.fbCursor := rfl
@[simp] theorem raiseFatal_mem (c : FatalCause) (s : State) : (raiseFatal c s).mem = s.mem := rfl
@[simp] theorem raiseFatal_rowOut (c : FatalCause) (s : State) : (raiseFatal c s).rowOut = s.rowOut := rfl
@[simp] theorem raiseFatal_cfg (c : FatalCause) (s : State) : (raiseFatal c s).cfg = s.cfg := rfl
@[simp] theorem raiseFatal_inbox (c : FatalCause) (s : State) : (raiseFatal c s).inbox = s.inbox := rfl
@[simp] theorem raiseFatal_readData (c : FatalCause) (s : State) : (raiseFatal c s).readData = s.readData := rfl
@[simp] theorem raiseFatal_epoch (c : FatalCause) (s : State) : (raiseFatal c s).epoch = s.epoch := rfl

@[simp] theorem endedOk_arg0 (s : State) (m : Memory) : (endedOk s m).arg0 = s.arg0 := rfl
@[simp] theorem endedOk_srcAddr (s : State) (m : Memory) : (endedOk s m).srcAddr = s.srcAddr := rfl
@[simp] theorem endedOk_srcFmt (s : State) (m : Memory) : (endedOk s m).srcFmt = s.srcFmt := rfl
@[simp] theorem endedOk_srcOrg (s : State) (m : Memory) : (endedOk s m).srcOrg = s.srcOrg := rfl
@[simp] theorem endedOk_srcSize (s : State) (m : Memory) : (endedOk s m).srcSize = s.srcSize := rfl
@[simp] theorem endedOk_srcPal (s : State) (m : Memory) : (endedOk s m).srcPal = s.srcPal := rfl
@[simp] theorem endedOk_dstAddr (s : State) (m : Memory) : (endedOk s m).dstAddr = s.dstAddr := rfl
@[simp] theorem endedOk_dstFmt (s : State) (m : Memory) : (endedOk s m).dstFmt = s.dstFmt := rfl
@[simp] theorem endedOk_dstOrg (s : State) (m : Memory) : (endedOk s m).dstOrg = s.dstOrg := rfl
@[simp] theorem endedOk_dstSize (s : State) (m : Memory) : (endedOk s m).dstSize = s.dstSize := rfl
@[simp] theorem endedOk_rectOrg (s : State) (m : Memory) : (endedOk s m).rectOrg = s.rectOrg := rfl
@[simp] theorem endedOk_rectSize (s : State) (m : Memory) : (endedOk s m).rectSize = s.rectSize := rfl
@[simp] theorem endedOk_offs (s : State) (m : Memory) : (endedOk s m).offs = s.offs := rfl
@[simp] theorem endedOk_ctrl (s : State) (m : Memory) : (endedOk s m).ctrl = s.ctrl := rfl
@[simp] theorem endedOk_status (s : State) (m : Memory) : (endedOk s m).status = okStatus s.status := rfl
@[simp] theorem endedOk_errlog (s : State) (m : Memory) : (endedOk s m).errlog = s.errlog := rfl
@[simp] theorem endedOk_res0 (s : State) (m : Memory) : (endedOk s m).res0 = s.res0 := rfl
@[simp] theorem endedOk_res1 (s : State) (m : Memory) : (endedOk s m).res1 = s.res1 := rfl
@[simp] theorem endedOk_res2 (s : State) (m : Memory) : (endedOk s m).res2 = s.res2 := rfl
@[simp] theorem endedOk_fbDirtyOrg (s : State) (m : Memory) : (endedOk s m).fbDirtyOrg = s.fbDirtyOrg := rfl
@[simp] theorem endedOk_fbDirtySize (s : State) (m : Memory) : (endedOk s m).fbDirtySize = s.fbDirtySize := rfl
@[simp] theorem endedOk_fbFlags (s : State) (m : Memory) : (endedOk s m).fbFlags = s.fbFlags := rfl
@[simp] theorem endedOk_fbCursor (s : State) (m : Memory) : (endedOk s m).fbCursor = s.fbCursor := rfl
@[simp] theorem endedOk_mem (s : State) (m : Memory) : (endedOk s m).mem = m := rfl
@[simp] theorem endedOk_rowOut (s : State) (m : Memory) : (endedOk s m).rowOut = s.rowOut := rfl
@[simp] theorem endedOk_cfg (s : State) (m : Memory) : (endedOk s m).cfg = s.cfg := rfl
@[simp] theorem endedOk_inbox (s : State) (m : Memory) : (endedOk s m).inbox = s.inbox := rfl
@[simp] theorem endedOk_readData (s : State) (m : Memory) : (endedOk s m).readData = s.readData := rfl
@[simp] theorem endedOk_epoch (s : State) (m : Memory) : (endedOk s m).epoch = s.epoch := rfl

@[simp] theorem endedError_arg0 (s : State) (n : Nat) (log : Word) : (endedError s n log).arg0 = s.arg0 := rfl
@[simp] theorem endedError_srcAddr (s : State) (n : Nat) (log : Word) : (endedError s n log).srcAddr = s.srcAddr := rfl
@[simp] theorem endedError_srcFmt (s : State) (n : Nat) (log : Word) : (endedError s n log).srcFmt = s.srcFmt := rfl
@[simp] theorem endedError_srcOrg (s : State) (n : Nat) (log : Word) : (endedError s n log).srcOrg = s.srcOrg := rfl
@[simp] theorem endedError_srcSize (s : State) (n : Nat) (log : Word) : (endedError s n log).srcSize = s.srcSize := rfl
@[simp] theorem endedError_srcPal (s : State) (n : Nat) (log : Word) : (endedError s n log).srcPal = s.srcPal := rfl
@[simp] theorem endedError_dstAddr (s : State) (n : Nat) (log : Word) : (endedError s n log).dstAddr = s.dstAddr := rfl
@[simp] theorem endedError_dstFmt (s : State) (n : Nat) (log : Word) : (endedError s n log).dstFmt = s.dstFmt := rfl
@[simp] theorem endedError_dstOrg (s : State) (n : Nat) (log : Word) : (endedError s n log).dstOrg = s.dstOrg := rfl
@[simp] theorem endedError_dstSize (s : State) (n : Nat) (log : Word) : (endedError s n log).dstSize = s.dstSize := rfl
@[simp] theorem endedError_rectOrg (s : State) (n : Nat) (log : Word) : (endedError s n log).rectOrg = s.rectOrg := rfl
@[simp] theorem endedError_rectSize (s : State) (n : Nat) (log : Word) :
    (endedError s n log).rectSize = s.rectSize := rfl
@[simp] theorem endedError_offs (s : State) (n : Nat) (log : Word) : (endedError s n log).offs = s.offs := rfl
@[simp] theorem endedError_ctrl (s : State) (n : Nat) (log : Word) : (endedError s n log).ctrl = s.ctrl := rfl
@[simp] theorem endedError_status (s : State) (n : Nat) (log : Word) :
    (endedError s n log).status = errorStatus s.status n := rfl
@[simp] theorem endedError_errlog (s : State) (n : Nat) (log : Word) :
    (endedError s n log).errlog = s.errlog ||| log := rfl
@[simp] theorem endedError_res0 (s : State) (n : Nat) (log : Word) : (endedError s n log).res0 = s.res0 := rfl
@[simp] theorem endedError_res1 (s : State) (n : Nat) (log : Word) : (endedError s n log).res1 = s.res1 := rfl
@[simp] theorem endedError_res2 (s : State) (n : Nat) (log : Word) : (endedError s n log).res2 = s.res2 := rfl
@[simp] theorem endedError_fbDirtyOrg (s : State) (n : Nat) (log : Word) :
    (endedError s n log).fbDirtyOrg = s.fbDirtyOrg := rfl
@[simp] theorem endedError_fbDirtySize (s : State) (n : Nat) (log : Word) :
    (endedError s n log).fbDirtySize = s.fbDirtySize := rfl
@[simp] theorem endedError_fbFlags (s : State) (n : Nat) (log : Word) : (endedError s n log).fbFlags = s.fbFlags := rfl
@[simp] theorem endedError_fbCursor (s : State) (n : Nat) (log : Word) :
    (endedError s n log).fbCursor = s.fbCursor := rfl
@[simp] theorem endedError_mem (s : State) (n : Nat) (log : Word) : (endedError s n log).mem = s.mem := rfl
@[simp] theorem endedError_rowOut (s : State) (n : Nat) (log : Word) : (endedError s n log).rowOut = s.rowOut := rfl
@[simp] theorem endedError_cfg (s : State) (n : Nat) (log : Word) : (endedError s n log).cfg = s.cfg := rfl
@[simp] theorem endedError_inbox (s : State) (n : Nat) (log : Word) : (endedError s n log).inbox = s.inbox := rfl
@[simp] theorem endedError_readData (s : State) (n : Nat) (log : Word) :
    (endedError s n log).readData = s.readData := rfl
@[simp] theorem endedError_epoch (s : State) (n : Nat) (log : Word) : (endedError s n log).epoch = s.epoch := rfl

@[simp] theorem endedHalt_arg0 (s : State) (m : Memory) (cause : Nat) : (endedHalt s m cause).arg0 = s.arg0 := rfl
@[simp] theorem endedHalt_srcAddr (s : State) (m : Memory) (cause : Nat) :
    (endedHalt s m cause).srcAddr = s.srcAddr := rfl
@[simp] theorem endedHalt_srcFmt (s : State) (m : Memory) (cause : Nat) : (endedHalt s m cause).srcFmt = s.srcFmt := rfl
@[simp] theorem endedHalt_srcOrg (s : State) (m : Memory) (cause : Nat) : (endedHalt s m cause).srcOrg = s.srcOrg := rfl
@[simp] theorem endedHalt_srcSize (s : State) (m : Memory) (cause : Nat) :
    (endedHalt s m cause).srcSize = s.srcSize := rfl
@[simp] theorem endedHalt_srcPal (s : State) (m : Memory) (cause : Nat) : (endedHalt s m cause).srcPal = s.srcPal := rfl
@[simp] theorem endedHalt_dstAddr (s : State) (m : Memory) (cause : Nat) :
    (endedHalt s m cause).dstAddr = s.dstAddr := rfl
@[simp] theorem endedHalt_dstFmt (s : State) (m : Memory) (cause : Nat) : (endedHalt s m cause).dstFmt = s.dstFmt := rfl
@[simp] theorem endedHalt_dstOrg (s : State) (m : Memory) (cause : Nat) : (endedHalt s m cause).dstOrg = s.dstOrg := rfl
@[simp] theorem endedHalt_dstSize (s : State) (m : Memory) (cause : Nat) :
    (endedHalt s m cause).dstSize = s.dstSize := rfl
@[simp] theorem endedHalt_rectOrg (s : State) (m : Memory) (cause : Nat) :
    (endedHalt s m cause).rectOrg = s.rectOrg := rfl
@[simp] theorem endedHalt_rectSize (s : State) (m : Memory) (cause : Nat) :
    (endedHalt s m cause).rectSize = s.rectSize := rfl
@[simp] theorem endedHalt_offs (s : State) (m : Memory) (cause : Nat) : (endedHalt s m cause).offs = s.offs := rfl
@[simp] theorem endedHalt_ctrl (s : State) (m : Memory) (cause : Nat) : (endedHalt s m cause).ctrl = s.ctrl := rfl
@[simp] theorem endedHalt_status (s : State) (m : Memory) (cause : Nat) :
    (endedHalt s m cause).status = haltStatus s.status cause := rfl
@[simp] theorem endedHalt_errlog (s : State) (m : Memory) (cause : Nat) : (endedHalt s m cause).errlog = s.errlog := rfl
@[simp] theorem endedHalt_res0 (s : State) (m : Memory) (cause : Nat) : (endedHalt s m cause).res0 = s.res0 := rfl
@[simp] theorem endedHalt_res1 (s : State) (m : Memory) (cause : Nat) : (endedHalt s m cause).res1 = s.res1 := rfl
@[simp] theorem endedHalt_res2 (s : State) (m : Memory) (cause : Nat) : (endedHalt s m cause).res2 = s.res2 := rfl
@[simp] theorem endedHalt_fbDirtyOrg (s : State) (m : Memory) (cause : Nat) :
    (endedHalt s m cause).fbDirtyOrg = s.fbDirtyOrg := rfl
@[simp] theorem endedHalt_fbDirtySize (s : State) (m : Memory) (cause : Nat) :
    (endedHalt s m cause).fbDirtySize = s.fbDirtySize := rfl
@[simp] theorem endedHalt_fbFlags (s : State) (m : Memory) (cause : Nat) :
    (endedHalt s m cause).fbFlags = s.fbFlags := rfl
@[simp] theorem endedHalt_fbCursor (s : State) (m : Memory) (cause : Nat) :
    (endedHalt s m cause).fbCursor = s.fbCursor := rfl
@[simp] theorem endedHalt_mem (s : State) (m : Memory) (cause : Nat) : (endedHalt s m cause).mem = m := rfl
@[simp] theorem endedHalt_rowOut (s : State) (m : Memory) (cause : Nat) : (endedHalt s m cause).rowOut = s.rowOut := rfl
@[simp] theorem endedHalt_cfg (s : State) (m : Memory) (cause : Nat) : (endedHalt s m cause).cfg = s.cfg := rfl
@[simp] theorem endedHalt_inbox (s : State) (m : Memory) (cause : Nat) : (endedHalt s m cause).inbox = s.inbox := rfl
@[simp] theorem endedHalt_readData (s : State) (m : Memory) (cause : Nat) :
    (endedHalt s m cause).readData = s.readData := rfl
@[simp] theorem endedHalt_epoch (s : State) (m : Memory) (cause : Nat) : (endedHalt s m cause).epoch = s.epoch := rfl

@[simp] theorem setDirty_arg0 (s : State) (r : Rect) : (setDirty s r).arg0 = s.arg0 := rfl
@[simp] theorem setDirty_srcAddr (s : State) (r : Rect) : (setDirty s r).srcAddr = s.srcAddr := rfl
@[simp] theorem setDirty_srcFmt (s : State) (r : Rect) : (setDirty s r).srcFmt = s.srcFmt := rfl
@[simp] theorem setDirty_srcOrg (s : State) (r : Rect) : (setDirty s r).srcOrg = s.srcOrg := rfl
@[simp] theorem setDirty_srcSize (s : State) (r : Rect) : (setDirty s r).srcSize = s.srcSize := rfl
@[simp] theorem setDirty_srcPal (s : State) (r : Rect) : (setDirty s r).srcPal = s.srcPal := rfl
@[simp] theorem setDirty_dstAddr (s : State) (r : Rect) : (setDirty s r).dstAddr = s.dstAddr := rfl
@[simp] theorem setDirty_dstFmt (s : State) (r : Rect) : (setDirty s r).dstFmt = s.dstFmt := rfl
@[simp] theorem setDirty_dstOrg (s : State) (r : Rect) : (setDirty s r).dstOrg = s.dstOrg := rfl
@[simp] theorem setDirty_dstSize (s : State) (r : Rect) : (setDirty s r).dstSize = s.dstSize := rfl
@[simp] theorem setDirty_rectOrg (s : State) (r : Rect) : (setDirty s r).rectOrg = s.rectOrg := rfl
@[simp] theorem setDirty_rectSize (s : State) (r : Rect) : (setDirty s r).rectSize = s.rectSize := rfl
@[simp] theorem setDirty_offs (s : State) (r : Rect) : (setDirty s r).offs = s.offs := rfl
@[simp] theorem setDirty_ctrl (s : State) (r : Rect) : (setDirty s r).ctrl = s.ctrl := rfl
@[simp] theorem setDirty_status (s : State) (r : Rect) : (setDirty s r).status = s.status := rfl
@[simp] theorem setDirty_errlog (s : State) (r : Rect) : (setDirty s r).errlog = s.errlog := rfl
@[simp] theorem setDirty_res0 (s : State) (r : Rect) : (setDirty s r).res0 = s.res0 := rfl
@[simp] theorem setDirty_res1 (s : State) (r : Rect) : (setDirty s r).res1 = s.res1 := rfl
@[simp] theorem setDirty_res2 (s : State) (r : Rect) : (setDirty s r).res2 = s.res2 := rfl
@[simp] theorem setDirty_fbDirtyOrg (s : State) (r : Rect) : (setDirty s r).fbDirtyOrg = packFields r.x r.y := rfl
@[simp] theorem setDirty_fbDirtySize (s : State) (r : Rect) : (setDirty s r).fbDirtySize = packFields r.w r.h := rfl
@[simp] theorem setDirty_fbFlags (s : State) (r : Rect) : (setDirty s r).fbFlags = 1 := rfl
@[simp] theorem setDirty_fbCursor (s : State) (r : Rect) : (setDirty s r).fbCursor = s.fbCursor := rfl
@[simp] theorem setDirty_mem (s : State) (r : Rect) : (setDirty s r).mem = s.mem := rfl
@[simp] theorem setDirty_rowOut (s : State) (r : Rect) : (setDirty s r).rowOut = s.rowOut := rfl
@[simp] theorem setDirty_cfg (s : State) (r : Rect) : (setDirty s r).cfg = s.cfg := rfl
@[simp] theorem setDirty_inbox (s : State) (r : Rect) : (setDirty s r).inbox = s.inbox := rfl
@[simp] theorem setDirty_readData (s : State) (r : Rect) : (setDirty s r).readData = s.readData := rfl
@[simp] theorem setDirty_epoch (s : State) (r : Rect) : (setDirty s r).epoch = s.epoch := rfl

@[simp] theorem yieldRow_arg0 (s : State) (y a : Int) (len : Nat) (bytes : List Byte) :
    (yieldRow s y a len bytes).arg0 = s.arg0 := rfl
@[simp] theorem yieldRow_srcAddr (s : State) (y a : Int) (len : Nat) (bytes : List Byte) :
    (yieldRow s y a len bytes).srcAddr = s.srcAddr := rfl
@[simp] theorem yieldRow_srcFmt (s : State) (y a : Int) (len : Nat) (bytes : List Byte) :
    (yieldRow s y a len bytes).srcFmt = s.srcFmt := rfl
@[simp] theorem yieldRow_srcOrg (s : State) (y a : Int) (len : Nat) (bytes : List Byte) :
    (yieldRow s y a len bytes).srcOrg = s.srcOrg := rfl
@[simp] theorem yieldRow_srcSize (s : State) (y a : Int) (len : Nat) (bytes : List Byte) :
    (yieldRow s y a len bytes).srcSize = s.srcSize := rfl
@[simp] theorem yieldRow_srcPal (s : State) (y a : Int) (len : Nat) (bytes : List Byte) :
    (yieldRow s y a len bytes).srcPal = s.srcPal := rfl
@[simp] theorem yieldRow_dstAddr (s : State) (y a : Int) (len : Nat) (bytes : List Byte) :
    (yieldRow s y a len bytes).dstAddr = s.dstAddr := rfl
@[simp] theorem yieldRow_dstFmt (s : State) (y a : Int) (len : Nat) (bytes : List Byte) :
    (yieldRow s y a len bytes).dstFmt = s.dstFmt := rfl
@[simp] theorem yieldRow_dstOrg (s : State) (y a : Int) (len : Nat) (bytes : List Byte) :
    (yieldRow s y a len bytes).dstOrg = s.dstOrg := rfl
@[simp] theorem yieldRow_dstSize (s : State) (y a : Int) (len : Nat) (bytes : List Byte) :
    (yieldRow s y a len bytes).dstSize = s.dstSize := rfl
@[simp] theorem yieldRow_rectOrg (s : State) (y a : Int) (len : Nat) (bytes : List Byte) :
    (yieldRow s y a len bytes).rectOrg = s.rectOrg := rfl
@[simp] theorem yieldRow_rectSize (s : State) (y a : Int) (len : Nat) (bytes : List Byte) :
    (yieldRow s y a len bytes).rectSize = s.rectSize := rfl
@[simp] theorem yieldRow_offs (s : State) (y a : Int) (len : Nat) (bytes : List Byte) :
    (yieldRow s y a len bytes).offs = s.offs := rfl
@[simp] theorem yieldRow_ctrl (s : State) (y a : Int) (len : Nat) (bytes : List Byte) :
    (yieldRow s y a len bytes).ctrl = s.ctrl := rfl
@[simp] theorem yieldRow_status (s : State) (y a : Int) (len : Nat) (bytes : List Byte) :
    (yieldRow s y a len bytes).status = s.status := rfl
@[simp] theorem yieldRow_errlog (s : State) (y a : Int) (len : Nat) (bytes : List Byte) :
    (yieldRow s y a len bytes).errlog = s.errlog := rfl
@[simp] theorem yieldRow_res0 (s : State) (y a : Int) (len : Nat) (bytes : List Byte) :
    (yieldRow s y a len bytes).res0 = BitVec.ofInt 32 y := rfl
@[simp] theorem yieldRow_res1 (s : State) (y a : Int) (len : Nat) (bytes : List Byte) :
    (yieldRow s y a len bytes).res1 = BitVec.ofNat 32 (pixAddr a) := rfl
@[simp] theorem yieldRow_res2 (s : State) (y a : Int) (len : Nat) (bytes : List Byte) :
    (yieldRow s y a len bytes).res2 = BitVec.ofNat 32 len := rfl
@[simp] theorem yieldRow_fbDirtyOrg (s : State) (y a : Int) (len : Nat) (bytes : List Byte) :
    (yieldRow s y a len bytes).fbDirtyOrg = s.fbDirtyOrg := rfl
@[simp] theorem yieldRow_fbDirtySize (s : State) (y a : Int) (len : Nat) (bytes : List Byte) :
    (yieldRow s y a len bytes).fbDirtySize = s.fbDirtySize := rfl
@[simp] theorem yieldRow_fbFlags (s : State) (y a : Int) (len : Nat) (bytes : List Byte) :
    (yieldRow s y a len bytes).fbFlags = s.fbFlags := rfl
@[simp] theorem yieldRow_fbCursor (s : State) (y a : Int) (len : Nat) (bytes : List Byte) :
    (yieldRow s y a len bytes).fbCursor = BitVec.ofNat 32 ((cursorRow s + 1) % 65536) := rfl
@[simp] theorem yieldRow_mem (s : State) (y a : Int) (len : Nat) (bytes : List Byte) :
    (yieldRow s y a len bytes).mem = s.mem := rfl
@[simp] theorem yieldRow_rowOut (s : State) (y a : Int) (len : Nat) (bytes : List Byte) :
    (yieldRow s y a len bytes).rowOut = s.rowOut ++ [⟨y, bytes⟩] := rfl
@[simp] theorem yieldRow_cfg (s : State) (y a : Int) (len : Nat) (bytes : List Byte) :
    (yieldRow s y a len bytes).cfg = s.cfg := rfl
@[simp] theorem yieldRow_inbox (s : State) (y a : Int) (len : Nat) (bytes : List Byte) :
    (yieldRow s y a len bytes).inbox = s.inbox := rfl
@[simp] theorem yieldRow_readData (s : State) (y a : Int) (len : Nat) (bytes : List Byte) :
    (yieldRow s y a len bytes).readData = s.readData := rfl
@[simp] theorem yieldRow_epoch (s : State) (y a : Int) (len : Nat) (bytes : List Byte) :
    (yieldRow s y a len bytes).epoch = s.epoch := rfl

@[simp] theorem resetEvent_arg0 (s : State) : (resetEvent s).arg0 = 0 := rfl
@[simp] theorem resetEvent_srcAddr (s : State) : (resetEvent s).srcAddr = 0 := rfl
@[simp] theorem resetEvent_srcFmt (s : State) : (resetEvent s).srcFmt = 0 := rfl
@[simp] theorem resetEvent_srcOrg (s : State) : (resetEvent s).srcOrg = 0 := rfl
@[simp] theorem resetEvent_srcSize (s : State) : (resetEvent s).srcSize = 0 := rfl
@[simp] theorem resetEvent_srcPal (s : State) : (resetEvent s).srcPal = 0 := rfl
@[simp] theorem resetEvent_dstAddr (s : State) : (resetEvent s).dstAddr = 0 := rfl
@[simp] theorem resetEvent_dstFmt (s : State) : (resetEvent s).dstFmt = 0 := rfl
@[simp] theorem resetEvent_dstOrg (s : State) : (resetEvent s).dstOrg = 0 := rfl
@[simp] theorem resetEvent_dstSize (s : State) : (resetEvent s).dstSize = 0 := rfl
@[simp] theorem resetEvent_rectOrg (s : State) : (resetEvent s).rectOrg = 0 := rfl
@[simp] theorem resetEvent_rectSize (s : State) : (resetEvent s).rectSize = 0 := rfl
@[simp] theorem resetEvent_offs (s : State) : (resetEvent s).offs = 0 := rfl
@[simp] theorem resetEvent_ctrl (s : State) : (resetEvent s).ctrl = 0 := rfl
@[simp] theorem resetEvent_status (s : State) : (resetEvent s).status = 0 := rfl
@[simp] theorem resetEvent_errlog (s : State) : (resetEvent s).errlog = 0 := rfl
@[simp] theorem resetEvent_res0 (s : State) : (resetEvent s).res0 = 0 := rfl
@[simp] theorem resetEvent_res1 (s : State) : (resetEvent s).res1 = 0 := rfl
@[simp] theorem resetEvent_res2 (s : State) : (resetEvent s).res2 = 0 := rfl
@[simp] theorem resetEvent_fbDirtyOrg (s : State) : (resetEvent s).fbDirtyOrg = 0 := rfl
@[simp] theorem resetEvent_fbDirtySize (s : State) : (resetEvent s).fbDirtySize = 0 := rfl
@[simp] theorem resetEvent_fbFlags (s : State) : (resetEvent s).fbFlags = 0 := rfl
@[simp] theorem resetEvent_fbCursor (s : State) : (resetEvent s).fbCursor = 0 := rfl
@[simp] theorem resetEvent_mem (s : State) : (resetEvent s).mem = [] := rfl
@[simp] theorem resetEvent_rowOut (s : State) : (resetEvent s).rowOut = s.rowOut := rfl
@[simp] theorem resetEvent_cfg (s : State) : (resetEvent s).cfg = s.cfg := rfl
@[simp] theorem resetEvent_inbox (s : State) : (resetEvent s).inbox = s.inbox := rfl
@[simp] theorem resetEvent_readData (s : State) : (resetEvent s).readData = s.readData := rfl
@[simp] theorem resetEvent_epoch (s : State) : (resetEvent s).epoch = s.epoch + 1 := rfl

end Sys2Proof.Machine
end

