-- ==== Sys2Proof/Tests/Slice0.lean ====
section
/-! SUPPORT. Tests of the model: ill-formed terms refused, words written out from the encoding tables decoded, single
steps whose expected values are those of spec/95_test_vectors.md, and for every obligation with hypotheses a state that
meets them. -/

namespace Sys2Proof.Tests

set_option Elab.async false

open Sys2Proof Sys2Proof.Machine

/-! ### WellFormed: an ill-formed term for each check is refused -/

theorem test_wellFormed_palc8_p1_needs_eight_bit_destination :
    ∀ i ∈ [Instr.palc8AssignP1 .mono1, .palc8AssignInvertedP1 .palette1, .palc8OrP1 .palette2, .palc8AndP1 .palette4,
        .palc8ClearP1 .reserved6, .palc8SetP1 .reserved7, .palc8TintP1 .mono1, .palc8TintLuminanceP1 .mono1],
      i.wellFormed = false := by decide

theorem test_wellFormed_palc8_p24_needs_eight_bit_destination :
    ∀ i ∈ [Instr.palc8AssignP24 .mono1 .palette2, .palc8AssignInvertedP24 .reserved6 .palette2,
        .palc8OrP24 .palette4 .palette4, .palc8AndP24 .palette1 .palette2, .palc8ClearP24 .palette2 .palette2,
        .palc8SetP24 .mono1 .palette4, .palc8TintP24 .mono1 .palette4, .palc8TintLuminanceP24 .reserved7 .palette4],
      i.wellFormed = false := by decide

theorem test_wellFormed_palc8_p24_needs_deep_palette_source :
    ∀ i ∈ [Instr.palc8AssignP24 .color8 .palette1, .palc8AssignInvertedP24 .color8 .mono1, .palc8OrP24 .color8 .color8,
        .palc8AndP24 .color8 .color8Circular, .palc8ClearP24 .color8Circular .reserved6,
        .palc8SetP24 .color8 .reserved7, .palc8TintP24 .color8 .palette1, .palc8TintLuminanceP24 .color8 .palette1],
      i.wellFormed = false := by decide

theorem test_wellFormed_c8c8_needs_eight_bit_destination :
    ∀ i ∈ [Instr.c8c8Assign .mono1 .color8, .c8c8AssignInverted .palette1 .color8, .c8c8Or .palette2 .color8,
        .c8c8And .palette4 .color8, .c8c8Clear .reserved6 .color8, .c8c8Set .reserved7 .color8, .c8c8Tint .mono1 .color8,
        .c8c8TintLuminance .mono1 .color8Circular],
      i.wellFormed = false := by decide

theorem test_wellFormed_c8c8_needs_eight_bit_source :
    ∀ i ∈ [Instr.c8c8Assign .color8 .mono1, .c8c8AssignInverted .color8 .palette1, .c8c8Or .color8 .palette2,
        .c8c8And .color8 .palette4, .c8c8Clear .color8 .reserved6, .c8c8Set .color8Circular .reserved7,
        .c8c8Tint .color8 .mono1, .c8c8TintLuminance .color8Circular .mono1],
      i.wellFormed = false := by decide

theorem test_wellFormed_m1c8_needs_eight_bit_destination :
    ∀ i ∈ [Instr.m1c8Assign .mono1, .m1c8AssignInverted .palette1, .m1c8Or .palette2, .m1c8And .palette4,
        .m1c8Clear .reserved6, .m1c8Set .reserved7, .m1c8Tint .mono1, .m1c8TintLuminance .palette1],
      i.wellFormed = false := by decide

theorem test_wellFormed_unsupported_rows_check_their_formats :
    ∀ i ∈ [Instr.unsupportedDPalette24 .assign .palette1 .mono1, .unsupportedDReserved .assign .color8 .mono1,
        .unsupportedMono1FromC8OrReserved .assign .palette4, .unsupportedMono1FromC8OrReserved .assign .mono1,
        .unsupportedC8FromReserved .assign .mono1 .reserved6, .unsupportedC8FromReserved .assign .color8 .color8],
      i.wellFormed = false := by decide

/-! ### Decode: words written out from 30_encoding R100 and R104, R105 (op, destination, source, three bits each) -/

theorem test_decode_commands :
    ∀ c ∈ [((0x00000001 : BitVec 32), Instr.blit), (0x00000002, .blitAt), (0x00000003, .isNoop), (0x00000010, .fbClear),
        (0x00000011, .fbMarkDirty), (0x00000012, .fbGetRow), (0x00000013, .fbSizeBytes), (0x00000014, .fbHasNextRow),
        (0x00000015, .fbNextRow), (0x00000016, .fbResetDirty)],
      decode (.cmd c.1) = .ok c.2 := by decide

theorem test_decode_m1m1 :
    ∀ c ∈ [((0b000_000_000 : BitVec 16), Instr.m1m1Assign), (0b001_000_000, .m1m1AssignInverted),
        (0b010_000_000, .m1m1Or), (0b011_000_000, .m1m1And), (0b100_000_000, .m1m1Clear), (0b101_000_000, .m1m1Set),
        (0b110_000_000, .m1m1Tint), (0b111_000_000, .m1m1TintLuminance)],
      decode (.key c.1) = .ok c.2 := by decide

theorem test_decode_palm1 :
    ∀ c ∈ [((0b000_000_001 : BitVec 16), Instr.palm1AssignP1), (0b000_000_010, .palm1AssignP2),
        (0b001_000_001, .palm1AssignInvertedP1), (0b001_000_010, .palm1AssignInvertedP2),
        (0b010_000_001, .palm1OrP1), (0b010_000_010, .palm1OrP2), (0b011_000_001, .palm1AndP1),
        (0b011_000_010, .palm1AndP2), (0b100_000_001, .palm1ClearP1), (0b100_000_010, .palm1ClearP2),
        (0b101_000_001, .palm1SetP1), (0b101_000_010, .palm1SetP2), (0b110_000_001, .palm1TintP1),
        (0b110_000_010, .palm1TintP2), (0b111_000_001, .palm1TintLuminanceP1),
        (0b111_000_010, .palm1TintLuminanceP2)],
      decode (.key c.1) = .ok c.2 := by decide +kernel

theorem test_decode_palc8 :
    ∀ c ∈ [((0b000_100_001 : BitVec 16), Instr.palc8AssignP1 .color8),
        (0b000_101_010, .palc8AssignP24 .color8Circular .palette2),
        (0b001_101_001, .palc8AssignInvertedP1 .color8Circular),
        (0b001_100_011, .palc8AssignInvertedP24 .color8 .palette4),
        (0b010_100_001, .palc8OrP1 .color8), (0b010_100_010, .palc8OrP24 .color8 .palette2),
        (0b011_101_001, .palc8AndP1 .color8Circular), (0b011_101_011, .palc8AndP24 .color8Circular .palette4),
        (0b100_100_001, .palc8ClearP1 .color8), (0b100_101_010, .palc8ClearP24 .color8Circular .palette2),
        (0b101_101_001, .palc8SetP1 .color8Circular), (0b101_100_011, .palc8SetP24 .color8 .palette4),
        (0b110_100_001, .palc8TintP1 .color8), (0b110_100_010, .palc8TintP24 .color8 .palette2),
        (0b111_101_001, .palc8TintLuminanceP1 .color8Circular),
        (0b111_101_011, .palc8TintLuminanceP24 .color8Circular .palette4)],
      decode (.key c.1) = .ok c.2 := by decide +kernel

theorem test_decode_c8c8 :
    ∀ c ∈ [((0b000_100_101 : BitVec 16), Instr.c8c8Assign .color8 .color8Circular),
        (0b001_101_100, .c8c8AssignInverted .color8Circular .color8), (0b010_100_100, .c8c8Or .color8 .color8),
        (0b011_101_101, .c8c8And .color8Circular .color8Circular), (0b100_100_101, .c8c8Clear .color8 .color8Circular),
        (0b101_101_100, .c8c8Set .color8Circular .color8), (0b110_100_100, .c8c8Tint .color8 .color8),
        (0b111_101_101, .c8c8TintLuminance .color8Circular .color8Circular)],
      decode (.key c.1) = .ok c.2 := by decide +kernel

theorem test_decode_m1c8 :
    ∀ c ∈ [((0b000_100_000 : BitVec 16), Instr.m1c8Assign .color8), (0b001_101_000, .m1c8AssignInverted .color8Circular),
        (0b010_100_000, .m1c8Or .color8), (0b011_101_000, .m1c8And .color8Circular), (0b100_100_000, .m1c8Clear .color8),
        (0b101_101_000, .m1c8Set .color8Circular), (0b110_100_000, .m1c8Tint .color8),
        (0b111_101_000, .m1c8TintLuminance .color8Circular)],
      decode (.key c.1) = .ok c.2 := by decide +kernel

theorem test_decode_unsupported_pairs :
    ∀ c ∈ [((0b010_001_110 : BitVec 16), Instr.unsupportedDPalette1 .or .reserved6),
        (0b110_011_000, .unsupportedDPalette24 .tint .palette4 .mono1),
        (0b101_111_100, .unsupportedDReserved .set .reserved7 .color8),
        (0b011_000_011, .unsupportedMono1FromP4 .and),
        (0b001_000_101, .unsupportedMono1FromC8OrReserved .assignInverted .color8Circular),
        (0b111_000_111, .unsupportedMono1FromC8OrReserved .tintLuminance .reserved7),
        (0b100_101_110, .unsupportedC8FromReserved .clear .color8Circular .reserved6)],
      decode (.key c.1) = .ok c.2 := by decide +kernel

/-- 30_encoding R102 (a): 95 V60 gives the three words. -/
theorem test_decode_rejects_unmatched_words :
    decode (.cmd 0x00000000) = .error .illegalCommand ∧ decode (.cmd 0x00000017) = .error .illegalCommand
      ∧ decode (.cmd 0x00000101) = .error .illegalCommand := by decide

/-- The dispatch key has nine bits (30_encoding R104). -/
theorem test_decode_rejects_wide_keys : decode (.key 0b1_000_000_000) = .error .reservedKeyBits := by decide

/-- A table word of each space is read in the table's bit order: palette 2 is the source, `Color8` the destination. -/
theorem test_table_words :
    decodeTableWord 16 0b000_100_010 = some (.palc8AssignP24 .color8 .palette2)
      ∧ decodeTableWord 32 0x00000016 = some .fbResetDirty := by decide +kernel

/-! ### Small states -/

/-- Bytes from an address on. -/
def bytesAt (a : Nat) (bs : List Byte) : Memory := bs.zipIdx.map fun c => (a + c.2, c.1)

/-- The circular framebuffer of 95 V34: two rows with the windows [1, 2] and [0, 3]. -/
def roundBoard : Cfg :=
  { exampleBoard with fbFormat := .color8Circular, fbBase := 0x3000, rowtab := [⟨-1, 1, 2⟩, ⟨2, 0, 3⟩] }

/-- A linear Mono1 framebuffer, 144 by 168, at 0x2000 (95 V56). -/
def monoBoard : Cfg := { exampleBoard with fbFormat := .mono1, fbCols := 144, fbRows := 168, fbBase := 0x2000 }

/-- A board with storage for the destination and the framebuffer only. -/
def bareBoard : Cfg := { exampleBoard with backed := [⟨0x200, 0x10⟩, ⟨0x1000, 8⟩] }

/-- After reset on a board, with the operand registers of a 4 by 1 source at 0x100 (palette at 0x180) and a 4 by 1
destination at 0x200, both with stride 4; `op` and `tint` in CTRL. -/
def drawing (c : Cfg) (f d : PixelFormat) (op : CompOp) (tint : Color) (m : Memory) : State :=
  { State.reset with
    cfg := c
    srcAddr := 0x100
    srcFmt := 0x00040000 ||| (fmtCode f).zeroExtend 32
    srcSize := 0x00010004
    srcPal := 0x180
    dstAddr := 0x200
    dstFmt := 0x00040000 ||| (fmtCode d).zeroExtend 32
    dstSize := 0x00010004
    rectSize := 0x00010004
    ctrl := tint.zeroExtend 32 <<< 8 ||| (opCode op).zeroExtend 32
    mem := m }

/-- After reset on a board. -/
def fresh (c : Cfg) : State := { State.reset with cfg := c }

/-- An answer is a next state that lists `bs` from address `a` on, with these STATUS and ERRLOG. -/
def leaves (o : Answer) (a : Nat) (bs : List Byte) (status errlog : Word) : Bool :=
  match o with
  | .next t => (bs.zipIdx.all fun c => memGet t.mem (a + c.2) == some c.1) && t.status == status && t.errlog == errlog
  | .fault _ => false
  | .refused _ => false

/-- An answer is a next state with these result registers and this STATUS. -/
def results (o : Answer) (r0 r1 r2 status : Word) : Bool :=
  match o with
  | .next t => t.res0 == r0 && t.res1 == r1 && t.res2 == r2 && t.status == status
  | .fault _ => false
  | .refused _ => false

/-- An answer is a refusal with this reason. -/
def refuses (o : Answer) (r : Refusal) : Bool :=
  match o with
  | .next _ => false
  | .fault _ => false
  | .refused q => q == r

/-! ### Single steps, expected values from spec/95_test_vectors.md -/

/-- 95 V7: eight columns from source column 4 to destination column 4. -/
def v7 (op : CompOp) (src dst : List Byte) : State :=
  { drawing exampleBoard .mono1 .mono1 op 0 (bytesAt 0x100 src ++ bytesAt 0x200 dst) with
    srcSize := 0x00010020, dstSize := 0x00010020, rectOrg := 0x00000004, rectSize := 0x00010008, offs := 0x00000004 }

/-- 95 V7 with `Assign`. -/
theorem test_m1m1Assign :
    leaves (exec .m1m1Assign (v7 .assign [0x78, 0x56, 0x34, 0x12] [0x00, 0x00, 0xFF, 0xFF])) 0x200
      [0x70, 0x06, 0xFF, 0xFF] 0 0 = true := by decide +kernel

/-- 95 V7 with `AssignInverted`. -/
theorem test_m1m1AssignInverted :
    leaves (exec .m1m1AssignInverted (v7 .assignInverted [0x78, 0x56, 0x34, 0x12] [0x00, 0x00, 0xFF, 0xFF])) 0x200
      [0x80, 0x09, 0xFF, 0xFF] 0 0 = true := by decide +kernel

/-- 95 V7 with `Or`. -/
theorem test_m1m1Or :
    leaves (exec .m1m1Or (v7 .or [0x78, 0x56, 0x34, 0x12] [0x00, 0x00, 0xFF, 0xFF])) 0x200
      [0x70, 0x06, 0xFF, 0xFF] 0 0 = true := by decide +kernel

/-- 95 V8: sixteen columns from source column 0 to destination column 8. -/
def v8 (op : CompOp) : State :=
  { v7 op [0x78, 0x56, 0x34, 0x12] [0x00, 0xFF, 0xFF, 0x00] with
    rectOrg := 0x00000008, rectSize := 0x00010010, offs := 0 }

/-- 95 V8 with `And`. -/
theorem test_m1m1And :
    leaves (exec .m1m1And (v8 .and)) 0x200 [0x00, 0x78, 0x56, 0x00] 0 0 = true := by decide +kernel

/-- 95 V8 with `Clear`. -/
theorem test_m1m1Clear :
    leaves (exec .m1m1Clear (v8 .clear)) 0x200 [0x00, 0x87, 0xA9, 0x00] 0 0 = true := by decide +kernel

/-- 95 V7 with `Set`. -/
theorem test_m1m1Set :
    leaves (exec .m1m1Set (v7 .set [0x78, 0x56, 0x34, 0x12] [0x00, 0x00, 0xFF, 0xFF])) 0x200
      [0x80, 0x09, 0xFF, 0xFF] 0 0 = true := by decide +kernel

/-- The word procedure gives the word of 95 V7 too (42_mono1_to_mono1 R190). -/
theorem test_m1m1_word_procedure :
    (match m1m1Words m1m1AssignInvertedForm (pixEnv (v7 .assign [0x78, 0x56, 0x34, 0x12] [0, 0, 0xFF, 0xFF]))
        (rowArgs (v7 .assign [0x78, 0x56, 0x34, 0x12] [0, 0, 0xFF, 0xFF]) .mono1 .mono1)
        (v7 .assign [0x78, 0x56, 0x34, 0x12] [0, 0, 0xFF, 0xFF]).mem with
      | .ok m => m == bytesAt 0x100 [0x78, 0x56, 0x34, 0x12] ++ bytesAt 0x200 [0x80, 0x09, 0xFF, 0xFF]
      | .error _ => false) = true := by decide +kernel

/-- 42_mono1_to_mono1 R189. -/
theorem test_m1m1Tint : refuses (exec .m1m1Tint (fresh exampleBoard)) .noMono1TintForm = true := by decide

/-- 42_mono1_to_mono1 R189. -/
theorem test_m1m1TintLuminance :
    refuses (exec .m1m1TintLuminance (fresh exampleBoard)) .noMono1TintForm = true := by decide

/-- 95 V20 to V26: a Palette1 source 1010 with the palette transparent, black, over a word of ones. -/
def v20 (op : CompOp) (tint : Color) : State :=
  drawing exampleBoard .palette1 .mono1 op tint
    (bytesAt 0x100 [0xA0] ++ bytesAt 0x180 [0x00, 0xC0, 0x00, 0xC0] ++ bytesAt 0x200 [0xFF, 0xFF, 0xFF, 0xFF])

/-- The routine run with the reference library (40_primitives R132). -/
def byRef (s : State) : Answer := blitTiled refColorLib (opField s.ctrl) (blitArgs s) s

/-- 95 V20 (Ref). -/
theorem test_palm1SetP1 :
    leaves (byRef (v20 .set 0)) 0x200 [0xFA, 0xFF, 0xFF, 0xFF] 0 0 = true := by decide +kernel

/-- 43_palette_to_mono1 R207: called by key with a black tint over opaque entries, so black everywhere. -/
theorem test_palm1_tint_by_key :
    ∀ i ∈ [Instr.palm1TintP1, .palm1TintP2],
      leaves (exec i { v20 .tint 0xC0 with
          mem := bytesAt 0x100 [0xA0] ++ bytesAt 0x180 [0xFF, 0xC0, 0xFF, 0xC0] ++ bytesAt 0x200 [0xFF, 0xFF, 0xFF, 0xFF] })
        0x200 [0xF0, 0xFF, 0xFF, 0xFF] 0 0 = true := by decide +kernel

/-- 95 V23: `And` is rejected at the first visited pixel, nothing written. -/
theorem test_rejected_palette_to_mono1 :
    ∀ i ∈ [Instr.palm1AssignInvertedP1, .palm1AssignInvertedP2, .palm1OrP1, .palm1OrP2, .palm1AndP1, .palm1AndP2,
        .palm1ClearP1, .palm1ClearP2],
      leaves (exec i (v20 .and 0)) 0x200 [0xFF, 0xFF, 0xFF, 0xFF] 3 8 = true := by decide +kernel

/-- 95 V18 (Ref): grey checkerboard for the two middle entries; on row 0 the pattern is 0xAAAAAAAA. -/
theorem test_palm1AssignP2_dithers :
    leaves (palm1AssignP2 refColorLib
        (rowArgs (drawing exampleBoard .palette2 .mono1 .assign 0 []) .mono1 .palette2)
        (drawing exampleBoard .palette2 .mono1 .assign 0
          (bytesAt 0x100 [0x1B] ++ bytesAt 0x180 [0xC0, 0xD5, 0xEA, 0xFF] ++ bytesAt 0x200 [0, 0, 0, 0])))
      0x200 [0x0A, 0, 0, 0] 0 0 = true := by decide +kernel

/-- 95 V29 to V33: palette indices 1, 2, 3 over bytes 0xCC. -/
def v29 (op : CompOp) (tint : Color) : State :=
  { drawing exampleBoard .palette4 .color8 op tint
      (bytesAt 0x100 [0x12, 0x30] ++ bytesAt 0x180 [0x00, 0xC3, 0x7F, 0xF0] ++ bytesAt 0x200 [0xCC, 0xCC, 0xCC, 0xCC])
    with srcSize := 0x00010003, rectOrg := 0x00000001, rectSize := 0x00010003 }

/-- 95 V29. -/
theorem test_palc8AssignP24 :
    leaves (byRef (v29 .assign 0)) 0x200 [0xCC, 0xC3, 0x7F, 0xF0] 0 0 = true := by decide +kernel

/-- 95 V30 (Ref). -/
theorem test_palc8SetP24 :
    leaves (byRef (v29 .set 0)) 0x200 [0xCC, 0xC3, 0xDD, 0xF0] 0 0 = true := by decide +kernel

/-- 95 V31 (Ref). -/
theorem test_palc8TintP24 :
    leaves (byRef (v29 .tint 0xE2)) 0x200 [0xCC, 0xE2, 0xC8, 0xE2] 0 0 = true := by decide +kernel

/-- 95 V32 (Ref). -/
theorem test_palc8TintLuminanceP24 :
    leaves (byRef (v29 .tintLuminance 0xE2)) 0x200 [0xCC, 0xE2, 0xDD, 0xE2] 0 0 = true := by decide +kernel

/-- 95 V34: onto a circular framebuffer, only the columns of each row's window. -/
theorem test_palc8AssignP1_circular :
    leaves (exec (.palc8AssignP1 .color8Circular)
        { drawing roundBoard .palette1 .color8Circular .assign 0
            (bytesAt 0x100 [0x50] ++ bytesAt 0x180 [0xC0, 0xFF] ++ bytesAt 0x3000 [0x11, 0x11, 0x11, 0x11, 0x11, 0x11])
          with dstAddr := 0x3000, dstSize := 0x00020004, rectSize := 0x00020004 })
      0x3000 [0xFF, 0xC0, 0xC0, 0xFF, 0xC0, 0xFF] 0 0 = true := by decide +kernel

/-- 95 V33: `And` is rejected at the first visited pixel, nothing written. -/
theorem test_rejected_palette_to_color8 :
    ∀ i ∈ [Instr.palc8AssignInvertedP24 .color8 .palette4, .palc8OrP24 .color8 .palette4,
        .palc8AndP24 .color8 .palette4, .palc8ClearP24 .color8 .palette4],
      leaves (exec i (v29 .and 0)) 0x200 [0xCC, 0xCC, 0xCC, 0xCC] 3 8 = true := by decide +kernel

/-- 95 V36: the missing palette, code 2, not logged. -/
theorem test_missing_palette :
    leaves (exec .blit { v29 .assign 0 with srcPal := 0 }) 0x200 [0xCC, 0xCC, 0xCC, 0xCC] 2 0 = true := by
  decide +kernel

/-- 95 V37 to V42: four bytes of alpha 0, 1, 2, 3 over black. -/
def v37 (op : CompOp) (tint : Color) : State :=
  drawing exampleBoard .color8 .color8 op tint
    (bytesAt 0x100 [0x00, 0x55, 0xAA, 0xFF] ++ bytesAt 0x200 [0xC0, 0xC0, 0xC0, 0xC0])

/-- 95 V37: the first five operators copy. -/
theorem test_c8c8_copies :
    ∀ i ∈ [Instr.c8c8Assign .color8 .color8, .c8c8AssignInverted .color8 .color8, .c8c8Or .color8 .color8,
        .c8c8And .color8 .color8, .c8c8Clear .color8 .color8],
      leaves (exec i (v37 .assign 0)) 0x200 [0x00, 0x55, 0xAA, 0xFF] 0 0 = true := by decide +kernel

/-- 95 V38 (Ref). -/
theorem test_c8c8Set : leaves (byRef (v37 .set 0)) 0x200 [0xC0, 0xC0, 0xD5, 0xFF] 0 0 = true := by decide +kernel

/-- 95 V39 (Ref). -/
theorem test_c8c8Tint : leaves (byRef (v37 .tint 0xF0)) 0x200 [0xC0, 0xD0, 0xE0, 0xF0] 0 0 = true := by
  decide +kernel

/-- 95 V40 (Ref). -/
theorem test_c8c8TintLuminance :
    leaves (byRef (v37 .tintLuminance 0xF0)) 0x200 [0xC0, 0xD0, 0xEA, 0xFF] 0 0 = true := by decide +kernel

/-- 95 V44: the word 0x5 over the bytes 11 22 33 44. -/
def v44 (op : CompOp) : State :=
  drawing exampleBoard .mono1 .color8 op 0xE2 (bytesAt 0x100 [5, 0, 0, 0] ++ bytesAt 0x200 [0x11, 0x22, 0x33, 0x44])

/-- 95 V44, all eight operators. -/
theorem test_m1c8 :
    ∀ c ∈ [(Instr.m1c8Assign .color8, ([0xFF, 0xC0, 0xFF, 0xC0] : List Byte)),
        (.m1c8AssignInverted .color8, [0xC0, 0xFF, 0xC0, 0xFF]), (.m1c8Or .color8, [0xFF, 0x22, 0xFF, 0x44]),
        (.m1c8And .color8, [0x11, 0xC0, 0x33, 0xC0]), (.m1c8Clear .color8, [0xC0, 0x22, 0xC0, 0x44]),
        (.m1c8Set .color8, [0x11, 0xFF, 0x33, 0xFF]), (.m1c8Tint .color8, [0x11, 0xE2, 0x33, 0xE2]),
        (.m1c8TintLuminance .color8, [0x11, 0xE2, 0x33, 0xE2])],
      leaves (exec c.1 (v44 .assign)) 0x200 c.2 0 0 = true := by decide +kernel

/-- 46_mono1_to_color8 R273: the third row of a table of two rows halts, the rows above painted. -/
theorem test_m1c8_row_index_halt :
    leaves (exec (.m1c8Assign .color8Circular)
        { drawing roundBoard .mono1 .color8Circular .assign 0
            (bytesAt 0x100 [6, 0, 0, 0] ++ bytesAt 0x3000 [0, 0, 0, 0, 0, 0])
          with dstAddr := 0x3000, dstSize := 0x00030004, rectSize := 0x00030004 })
      0x3000 [0xFF, 0xFF, 0xC0, 0xFF, 0xFF, 0xC0] 0x80000100 0 = true := by decide +kernel

/-- 95 V10: a destination address that is no multiple of 4 halts M1M1. -/
theorem test_unaligned_halt :
    leaves (exec .blit { v8 .assign with dstAddr := 0x202 }) 0x200 [0x00, 0xFF, 0xFF, 0x00] 0x80000200 0 = true := by
  decide +kernel

/-- 95 V12: a black tint on Mono1 is `And`, so a `BLIT` with `Tint` gives the word of V8 with `And`. -/
theorem test_blit_black_tint_is_and :
    leaves (exec .blit { v8 .tint with ctrl := 0x0000C006 }) 0x200 [0x00, 0x78, 0x56, 0x00] 0 0 = true := by
  decide +kernel

/-- 95 V59: an unsupported pair, code 1, log bit 1. -/
theorem test_blit_unsupported_pair :
    leaves (exec .blit { v37 .assign 0 with dstFmt := 0x00040000 }) 0x200 [0xC0, 0xC0, 0xC0, 0xC0] 1 2 = true := by
  decide +kernel

/-- 95 V50: `BLIT_AT` with a point left of the bounds: the first column lands on the clipped edge. -/
theorem test_blitAt_clips :
    leaves (exec .blitAt { v37 .assign 0 with offs := 0x0000FFFE }) 0x200 [0x00, 0x55, 0xC0, 0xC0] 0 0 = true := by
  decide +kernel

/-- 95 V51: transparent tint. -/
theorem test_isNoop :
    results (exec .isNoop { fresh exampleBoard with ctrl := 0x3F06 }) 1 0 0 0 = true
      ∧ results (exec .isNoop { fresh exampleBoard with ctrl := 0x7F06 }) 0 0 0 0 = true := by decide +kernel

/-- 41_dispatch R166: the six rows without a routine. -/
theorem test_unsupported_rows :
    ∀ i ∈ [Instr.unsupportedDPalette1 .assign .mono1, .unsupportedDPalette24 .assign .palette4 .mono1,
        .unsupportedDReserved .assign .reserved6 .mono1, .unsupportedMono1FromP4 .assign,
        .unsupportedMono1FromC8OrReserved .assign .color8, .unsupportedC8FromReserved .assign .color8 .reserved7],
      leaves (exec i (v37 .assign 0)) 0x200 [0xC0, 0xC0, 0xC0, 0xC0] 1 2 = true := by decide +kernel

/-! ### The framebuffer -/

/-- 95 V54: eight bytes set to 0xFF. -/
theorem test_fbClear :
    leaves (exec .fbClear (fresh exampleBoard)) 0x1000 [255, 255, 255, 255, 255, 255, 255, 255] 0 0 = true := by
  decide +kernel

/-- 95 T4: the second mark of the instance. -/
theorem test_fbMarkDirty :
    (match exec .fbMarkDirty { fresh monoBoard with
        fbDirtyOrg := 0x0014000A, fbDirtySize := 0x0028001E, fbFlags := 1, rectOrg := 0x0032FFFB,
        rectSize := 0x00C8000A } with
      | .next t => t.fbDirtyOrg == 0x00140000 && t.fbDirtySize == 0x00940028 && t.fbFlags == 1
      | .fault _ => false
      | .refused _ => false) = true := by decide +kernel

/-- 95 V55, and the row -1 of 95 V57. -/
theorem test_fbGetRow :
    results (exec .fbGetRow { fresh exampleBoard with arg0 := 1 }) 0x1004 0x00030000 0 0 = true
      ∧ results (exec .fbGetRow { fresh exampleBoard with arg0 := 0xFFFF }) 0 0 0 0x80000100 = true := by decide +kernel

/-- 47_framebuffer R301: row 0 of the circular example. -/
theorem test_fbGetRow_circular :
    results (exec .fbGetRow (fresh roundBoard)) 0x2FFF 0x00020001 0 0 = true := by decide +kernel

/-- 95 V52 and V56. -/
theorem test_fbSizeBytes :
    results (exec .fbSizeBytes (fresh exampleBoard)) 8 0 0 0 = true
      ∧ results (exec .fbSizeBytes (fresh monoBoard)) 3360 0 0 0 = true := by decide +kernel

/-- A circular framebuffer dirty all over, as `FB_CLEAR` leaves it. -/
def dirtyRound : State :=
  { fresh roundBoard with
    fbDirtySize := 0x00020004, fbFlags := 1, mem := bytesAt 0x3000 [255, 255, 255, 255, 255, 255] }

/-- 95 V53: clean after reset; dirty after a clear. -/
theorem test_fbHasNextRow :
    results (exec .fbHasNextRow (fresh exampleBoard)) 0 0 0 0 = true
      ∧ results (exec .fbHasNextRow dirtyRound) 1 0 0 0 = true := by decide +kernel

/-- 47_framebuffer R301: the second row yielded starts at 0x3002 and has four bytes; 95 V53: none while clean. -/
theorem test_fbNextRow :
    results (exec .fbNextRow { dirtyRound with fbCursor := 1 }) 1 0x3002 4 0 = true
      ∧ results (exec .fbNextRow (fresh exampleBoard)) 0 0 0 4 = true := by decide +kernel

/-- 47_framebuffer R297. -/
theorem test_fbResetDirty :
    (match exec .fbResetDirty { dirtyRound with fbDirtyOrg := 0x00000001, fbCursor := 2 } with
      | .next t => t.fbDirtyOrg == 1 && t.fbDirtySize == 0 && t.fbFlags == 0 && t.fbCursor == 0
      | .fault _ => false
      | .refused _ => false) = true := by decide +kernel

/-! ### The bus -/

/-- 95 V61: reserved bits are not stored, STATUS is read-only. -/
theorem test_register_writes_mask :
    (match regWrite 0x24 0xFFFFFFFF (fresh exampleBoard), regWrite 0x04 0xFFFFFFFF (fresh exampleBoard) with
      | .next t, .next u => t.srcFmt == 0xFFFF0007 && u.status == 0
      | _, _ => false) = true := by decide +kernel

/-- 95 V60: an unmatched CMD word. -/
theorem test_illegal_command :
    leaves (regWrite 0 0x17 (fresh exampleBoard)) 0 [] 5 0x20 = true := by decide +kernel

/-- 95 V24: ERRLOG is cleared by ones. -/
theorem test_errlog_write_one_clears :
    leaves (regWrite 0x08 0x08 { fresh exampleBoard with errlog := 0x0A }) 0 [] 0 2 = true := by decide +kernel

/-- The step consumes the host's next operation and runs its command. -/
theorem test_step_runs_the_command :
    leaves (step ((v44 .and).withFetchWord 16 0b011_100_000)) 0x200 [0x11, 0xC0, 0x33, 0xC0] 0 0 = true
      ∧ results (step ((fresh exampleBoard).withFetchWord 32 0x13)) 8 0 0 0 = true := by decide +kernel


/-! ### For every obligation with hypotheses, a state that meets them -/

/-- An answer is a next state for which a test holds. -/
def nextWith (o : Answer) (test : State → Bool) : Bool :=
  match o with
  | .next t => test t
  | .fault _ => false
  | .refused _ => false

theorem next_of_nextWith {o : Answer} {test : State → Bool} (h : nextWith o test = true) :
    ∃ t, o = .next t ∧ test t = true := by
  cases o with
  | next t => exact ⟨t, rfl, h⟩
  | fault _ => cases h
  | refused _ => cases h

/-- A simple library that obeys the laws: nothing is reduced, and any alpha but 0 is opaque. -/
def plainLib : ColorLib where
  grayscale c := c
  alphaBlend src dst := if alpha src = 0 then dst else src
  tintViaLuminance _ tint := tint
  getBw c := c
  equal a b := a == b

theorem test_witness_LawfulLibrary : LawfulLibrary plainLib := by
  refine ⟨fun c d h => by simp [plainLib, h], fun c d h => ?_, ⟨rfl, rfl⟩, fun c => rfl,
    ⟨rfl, rfl, fun c h => h⟩, fun a => by simp [plainLib], fun a b => ?_, by decide, by decide⟩
  · simp [plainLib, h]
  · simp only [plainLib]; exact Bool.beq_comm

/-- A BLIT onto the circular framebuffer from a linear source of format `f`, two rows high: the whole table. -/
def ontoRound (f : PixelFormat) (h : BitVec 16) : State :=
  { drawing roundBoard f .color8Circular .assign 0 [] with
    srcSize := 0x00020004, dstAddr := 0x3000, dstSize := 0x00030004, rectSize := h ++ (4 : BitVec 16) }

/-- A BLIT from the circular framebuffer's rows to linear memory. -/
def fromRound : State :=
  { drawing roundBoard .color8Circular .color8 .assign 0 [] with
    srcAddr := 0x3000, srcSize := 0x00020004, dstSize := 0x00020004, rectSize := 0x00020004 }

/-- 41_dispatch R161: a rectangle without a column on rows past the table, and for a circular source with an offset outside
its bounds (93 U6), ends with OK. -/
theorem test_blit_empty_rectangle :
    leaves (exec .blit { ontoRound .mono1 3 with rectSize := 0x00030000 }) 0 [] 0 0 = true
      ∧ leaves (exec .blit { fromRound with rectSize := 0x0002FFFF, offs := 0x00050005 }) 0 [] 0 0 = true := by
  decide +kernel

/-- 46 R261: the row loop itself asks for row 2 there, which the table lacks. -/
theorem test_row_loop_asks_without_columns :
    rowLoop roundBoard.rowtab (blitArgs { ontoRound .mono1 3 with rectSize := 0x00030000 })
      = ⟨[], some (.fatal .rowIndexOutOfBounds)⟩ := by decide +kernel

/-- 41_dispatch R168 (b): a point right of a circular destination whose bounds pass the table. -/
theorem test_blitAt_right_of_the_bounds :
    leaves (exec .blitAt { ontoRound .mono1 3 with srcSize := 0x00030004, offs := 0x00000004 }) 0 [] 0 0 = true := by
  decide +kernel

/-- 93 U6: a circular source with an offset outside its bounds is refused where a pixel is visited. -/
theorem test_blit_offset_outside_is_refused :
    refuses (exec .blit { fromRound with offs := 0x00020000 }) .offsetOutsideSource = true := by decide +kernel

/-- 44_palette_to_color8 R228, 60_exceptions R320: an out-of-range first row halts before the operator is rejected. -/
theorem test_rejected_operator_off_the_table :
    leaves (exec (.palc8AndP24 .color8Circular .palette4) { ontoRound .palette4 1 with rectOrg := 0x00020000 }) 0 []
      0x80000100 0 = true := by decide +kernel

theorem test_witness_DecodeUndoesEncode :
    (Instr.palc8SetP24 .color8 .palette4).wellFormed = true
      ∧ (Instr.unsupportedMono1FromC8OrReserved .set .reserved7).wellFormed = true := by decide

theorem test_witness_EncodeUndoesDecode :
    decode (.key 0b111111111) = .ok (.unsupportedDReserved .tintLuminance .reserved7 .reserved7)
      ∧ decode (.cmd 1) = .ok .blit := by decide +kernel

theorem test_witness_StepRunsDecodedInstruction :
    decode (.key 0b011100000) = .ok (.m1c8And .color8)
      ∧ ({ v44 .and with inbox := [packetOp (.key 0b011100000)] } : State).inbox = packetOp (.key 0b011100000) :: []
      ∧ (fresh exampleBoard).inbox = [] := by decide +kernel

theorem test_witness_UnmatchedCommandIsIllegal :
    accepting (fresh exampleBoard) = true
      ∧ (0x101 : Word) ∉ ([0x01, 0x02, 0x03, 0x10, 0x11, 0x12, 0x13, 0x14, 0x15, 0x16] : List Word) := by decide

/-- The state in the fatal halt, also for `OnlyResetLeavesTheHalt`. -/
theorem test_witness_HaltedEngineIgnoresCommands :
    accepting { fresh exampleBoard with status := 0x80000100 } = false
      ∧ Instr.blit ≠ .m1m1Tint ∧ Instr.blit ≠ .m1m1TintLuminance := by decide

theorem test_witness_OnlyResetLeavesTheHalt :
    ∃ t, perform (.regWrite 0x08 0x2A) { fresh exampleBoard with status := 0x80000100, errlog := 0x2A } = .next t
      ∧ (t.errlog == 0) = true := next_of_nextWith (by decide +kernel)

theorem test_witness_StepKeepsInvariant :
    inv ((v44 .and).withFetchWord 16 0b011100000) = true
      ∧ ∃ t, step ((v44 .and).withFetchWord 16 0b011100000) = .next t ∧ (!t.mem.isEmpty) = true :=
  ⟨by decide +kernel, next_of_nextWith (by decide +kernel)⟩

theorem test_witness_RegisterWritesKeepOnlyWritableBits :
    ∀ off ∈ [0x04, 0x08, 0x18, 0x20, 0x24, 0x6C, 0x80, 0x9C], off ≠ 0 := by decide

/-- Also for `ClearFillsTheFramebuffer`, `MarkDirtyClipsTheUnion` and `SizeBytesReturnsTheOwnedBytes`: one board of each
format. -/
theorem test_witness_ConfigurationRegistersReadTheirFields :
    ∀ c ∈ [exampleBoard, roundBoard, monoBoard], accepting (fresh c) = true ∧ cfgWf (fresh c).cfg = true := by
  decide +kernel

theorem test_witness_HostReadsTheByteLastWritten :
    isBacked (fresh exampleBoard).cfg.backed (0xFFFFFFFF : Word).toNat = true := by decide +kernel

/-- Also for `IsNoopAnswersInRes0`. -/
theorem test_witness_TransparentTintIsNoOp :
    ∀ op ∈ [CompOp.tint, .tintLuminance], accepting (v37 op 0x3F) = true ∧ opField (v37 op 0x3F).ctrl = op
      ∧ alpha (tintField (v37 op 0x3F).ctrl) = 0 := by decide +kernel

theorem test_witness_TintNeitherBlackNorWhite :
    (blitArgs (v8 .tint)).dst.format = .mono1 ∧ plainLib.equal (plainLib.getBw 0xE2) 0xC0 = false
      ∧ plainLib.equal (plainLib.getBw 0xE2) 0xFF = false ∧ accepting (v8 .tint) = true := by decide +kernel

/-- A tint that reduces to black, one that reduces to white, and the operands that pass unchanged. -/
theorem test_witness_BlackTintIsAndWhiteTintIsSet :
    (plainLib.equal (plainLib.getBw 0xC0) 0xC0 = true)
      ∧ (plainLib.equal (plainLib.getBw 0xFF) 0xC0 = false ∧ plainLib.equal (plainLib.getBw 0xFF) 0xFF = true)
      ∧ LawfulLibrary plainLib ∧ (PixelFormat.color8 ≠ .mono1) ∧ (CompOp.set ≠ .tint ∧ CompOp.set ≠ .tintLuminance) :=
  ⟨by decide, by decide, test_witness_LawfulLibrary, by decide, by decide⟩

/-- What a BLIT's statements ask before the rows are walked. -/
theorem test_witness_BlitRunsTheRowOfItsKey :
    isNoopTint (opField (v37 .set 0).ctrl) (tintField (v37 .set 0).ctrl) = false
      ∧ normalise engineLib (formatField (v37 .set 0).dstFmt) (opField (v37 .set 0).ctrl)
          (tintField (v37 .set 0).ctrl) = some (.set, 0)
      ∧ decode (keyPacket .set (formatField (v37 .set 0).dstFmt) (formatField (v37 .set 0).srcFmt))
          = .ok (.c8c8Set .color8 .color8) := by decide +kernel

/-- One witness for each routine. -/
theorem test_witness_BlitRunsToItsEnd :
    ∀ s ∈ [v8 .set, { v37 .set 0 with srcFmt := 0x00040001, dstFmt := 0x00040000 }, v29 .set 0, v37 .set 0, v44 .set,
        fromRound], accepting s = true
      ∧ isNoopTint (opField s.ctrl) (tintField s.ctrl) = false
      ∧ normalise engineLib (formatField s.dstFmt) (opField s.ctrl) (tintField s.ctrl)
          = some (opField s.ctrl, tintField s.ctrl)
      ∧ entryPasses (opField s.ctrl) (blitArgs s) = true ∧ runs s (blitArgs s) = true
      ∧ (visited s (blitArgs s)).length ≠ 0 := by decide +kernel

theorem test_witness_BlitAtRunsToItsEnd :
    ∀ s ∈ [{ v37 .set 0 with offs := 0x0000FFFE }, { v44 .and with offs := 0x00000003 }], accepting s = true
      ∧ isNoopTint (opField s.ctrl) (tintField s.ctrl) = false
      ∧ normalise engineLib (formatField s.dstFmt) (opField s.ctrl) (tintField s.ctrl)
          = some (opField s.ctrl, tintField s.ctrl)
      ∧ entryPasses (opField s.ctrl) (blitAtArgs s) = true ∧ runs s (blitAtArgs s) = true
      ∧ (visited s (blitAtArgs s)).length ≠ 0 := by decide +kernel

/-- Also for `UnsupportedRowsReportTheirPair`: a pair of defined formats and one with a reserved code. -/
theorem test_witness_UnsupportedPairIsReported :
    ∀ s ∈ [{ v37 .assign 0 with dstFmt := 0x00040000 }, { v37 .assign 0 with srcFmt := 0x00040007 }],
      accepting s = true ∧ supportedPairs.contains (formatField s.srcFmt, formatField s.dstFmt) = false := by
  decide +kernel

theorem test_witness_MissingPaletteIsReported :
    accepting { v29 .assign 0 with srcPal := 0 } = true ∧ ({ v29 .assign 0 with srcPal := 0 } : State).srcPal = 0 := by
  decide +kernel

theorem test_witness_MisalignedMono1Halts :
    (∀ s ∈ [{ v8 .assign with srcAddr := 0x102 }, { v8 .assign with srcFmt := 0x00030000 }], accepting s = true
        ∧ (s.srcAddr.toNat % 4 ≠ 0 ∨ strideField s.srcFmt % 4 ≠ 0))
      ∧ ∀ s ∈ [{ v8 .assign with dstAddr := 0x201 }, { v8 .assign with dstFmt := 0x00050000 }], accepting s = true
        ∧ (s.dstAddr.toNat % 4 ≠ 0 ∨ strideField s.dstFmt % 4 ≠ 0) ∧ s.srcPal ≠ 0 := by decide +kernel

theorem test_witness_VisitedPixelsAreTheWindowedRectangle :
    ∀ s ∈ [v8 .set, fromRound, ontoRound .mono1 2], (blitPlan s.cfg.rowtab (blitArgs s)).stop = none
      ∧ ((blitArgs s).dst.format = .mono1 ∨ (blitArgs s).dst.format.isEightBit = true)
      ∧ (visited s (blitArgs s)).length ≠ 0 := by decide +kernel

/-- An empty rectangle on a circular row that the table lacks, with a rejected operator and an offset outside the
source. -/
theorem test_witness_VisitsAreBoundedByTheRectangle :
    ∀ s ∈ [{ ontoRound .palette4 3 with rectSize := 0x00030000, ctrl := 0x00000003, offs := 0x00070007 }],
      accepting s = true ∧ isNoopTint (opField s.ctrl) (tintField s.ctrl) = false
      ∧ normalise engineLib (blitArgs s).dst.format (opField s.ctrl) (tintField s.ctrl) = some (.and, 0)
      ∧ entryPasses .assign (blitArgs s) = true ∧ backedBytes s (paletteBytes (blitArgs s).src) = true
      ∧ ((blitArgs s).rect.w ≤ 0 ∨ (blitArgs s).rect.h ≤ 0) := by decide +kernel

theorem test_witness_ContractKeepsTheWalkGoing :
    ∀ s ∈ [v8 .set, fromRound, { ontoRound .mono1 2 with dstSize := 0x00020004 }], contract (blitArgs s) = true
      ∧ rowsInTable s.cfg.rowtab (blitArgs s).src = true ∧ rowsInTable s.cfg.rowtab (blitArgs s).dst = true := by
  decide +kernel

/-- A circular destination: the rectangle ends with the table's last row, and one row below it; a circular source with
one row more than the table has. -/
theorem test_witness_CircularRowOutsideTheTableStopsTheWalk :
    ∀ c ∈ [(ontoRound .mono1 2, true), (ontoRound .mono1 3, false),
        ({ fromRound with srcSize := 0x00030004, dstSize := 0x00030004, rectSize := 0x00030004 }, false)],
      let a := blitArgs c.1
      let known := fun y => rowKnown roundBoard.rowtab a.dst y && rowKnown roundBoard.rowtab a.src (srcY a y)
      contract a = true ∧ (a.dst.format = .mono1 ∨ a.dst.format.isEightBit = true)
        ∧ (intRange a.rect.y (maxY a.rect)).all known = c.2 := by decide +kernel

/-- Also for `WordProcedureAgreesWithPixels`. -/
theorem test_witness_Mono1RowsWriteTheirBits :
    ∀ s ∈ [v7 .set [] [], v8 .set], accepting s = true ∧ isAligned (rowArgs s .mono1 .mono1).src = true
      ∧ isAligned (rowArgs s .mono1 .mono1).dst = true ∧ runs s (rowArgs s .mono1 .mono1) = true
      ∧ (visited s (rowArgs s .mono1 .mono1)).length ≠ 0 := by decide +kernel

theorem test_witness_Mono1TintRowsHaveNoForm :
    normalise plainLib .mono1 .tint 0xC0 = some (.and, 0xC0) ∧ normalise plainLib .mono1 .tint 0xFF = some (.set, 0xFF)
      ∧ normalise plainLib .mono1 .or 0 = some (.or, 0) := by decide

theorem test_witness_PaletteRowsDitherTheirBits :
    accepting (v20 .set 0) = true ∧ (v20 .set 0).srcPal ≠ 0 ∧ ∀ f ∈ [PixelFormat.palette1, .palette2],
      isAligned (rowArgs (v20 .set 0) .mono1 f).dst = true ∧ runs (v20 .set 0) (rowArgs (v20 .set 0) .mono1 f) = true
      ∧ (visited (v20 .set 0) (rowArgs (v20 .set 0) .mono1 f)).length ≠ 0 := by decide +kernel

/-- One witness that visits a pixel and one whose rectangle is empty (95 V25). -/
theorem test_witness_RejectedPaletteToMono1RowsReport :
    ∀ s ∈ [v20 .or 0, { v20 .or 0 with rectSize := 0 }], accepting s = true ∧ s.srcPal ≠ 0
      ∧ isAligned (rowArgs s .mono1 .palette1).dst = true ∧ readable s (rowArgs s .mono1 .palette1) = true
      ∧ (visited s (rowArgs s .mono1 .palette1)).isEmpty = (s.rectSize == 0)
      ∧ (blitPlan s.cfg.rowtab (rowArgs s .mono1 .palette1)).stop = none := by decide +kernel

theorem test_witness_PaletteRowsCombineTheirBytes :
    accepting (v29 .set 0) = true ∧ (v29 .set 0).srcPal ≠ 0 ∧ ∀ f ∈ [PixelFormat.palette1, .palette2, .palette4],
      runs (v29 .set 0) (rowArgs (v29 .set 0) .color8 f) = true
      ∧ (visited (v29 .set 0) (rowArgs (v29 .set 0) .color8 f)).length ≠ 0 := by decide +kernel

/-- One witness that visits a pixel, one whose rectangle is empty, and one whose first row the table lacks. -/
theorem test_witness_RejectedPaletteToColor8RowsReport :
    (∀ s ∈ [v29 .and 0, { v29 .and 0 with rectSize := 0 }], accepting s = true ∧ s.srcPal ≠ 0
      ∧ readable s (rowArgs s .color8 .palette4) = true
      ∧ (visited s (rowArgs s .color8 .palette4)).isEmpty = (s.rectSize == 0)
      ∧ (blitPlan s.cfg.rowtab (rowArgs s .color8 .palette4)).stop = none)
      ∧ ∀ s ∈ [{ ontoRound .palette4 1 with rectOrg := 0x00020000 }], accepting s = true ∧ s.srcPal ≠ 0
        ∧ readable s (rowArgs s .color8Circular .palette4) = true
        ∧ visited s (rowArgs s .color8Circular .palette4) = []
        ∧ (blitPlan s.cfg.rowtab (rowArgs s .color8Circular .palette4)).stop = some (.fatal .rowIndexOutOfBounds) := by
  decide +kernel

theorem test_witness_Color8RowsCopyOrBlendTheirBytes :
    (accepting (v37 .set 0) = true ∧ runs (v37 .set 0) (rowArgs (v37 .set 0) .color8 .color8) = true)
      ∧ accepting fromRound = true ∧ runs fromRound (rowArgs fromRound .color8 .color8Circular) = true := by
  decide +kernel

theorem test_witness_Mono1RowsExpandTheirBytes :
    accepting (v44 .set) = true ∧ isAligned (rowArgs (v44 .set) .color8 .mono1).src = true
      ∧ runs (v44 .set) (rowArgs (v44 .set) .color8 .mono1) = true := by decide +kernel

/-- The third row of a table of two, from a palette, an 8-bit and a Mono1 source. -/
theorem test_witness_RowIndexHaltKeepsTheRowsAbove :
    ∀ f ∈ [PixelFormat.palette1, .palette4, .color8, .mono1],
      accepting (ontoRound f 3) = true ∧ (ontoRound f 3).srcPal ≠ 0
      ∧ runsOffTable (ontoRound f 3) (rowArgs (ontoRound f 3) .color8Circular f) = true
      ∧ isAligned (rowArgs (ontoRound f 3) .color8Circular f).src = true
      ∧ (visited (ontoRound f 3) (rowArgs (ontoRound f 3) .color8Circular f)).length = 6 := by decide +kernel

theorem test_witness_OnlyVisitedPixelsAreWritten :
    (∃ t, exec .blit (v8 .and) = .next t ∧ (t.mem != (v8 .and).mem) = true)
      ∧ (∃ t, exec .blitAt (v8 .and) = .next t ∧ (t.mem != (v8 .and).mem) = true)
      ∧ (∃ t, exec .fbClear (fresh exampleBoard) = .next t ∧ (t.mem.length == 8) = true)
      ∧ (∃ t, exec .fbMarkDirty (v8 .and) = .next t ∧ (t.fbFlags == 1) = true) :=
  ⟨next_of_nextWith (by decide +kernel), next_of_nextWith (by decide +kernel), next_of_nextWith (by decide +kernel),
    next_of_nextWith (by decide +kernel)⟩

/-- Also for `BlitTouchesNoOtherRegister`: each of the three errors. -/
theorem test_witness_ErrorsLeavePixmemUnchanged :
    ∀ c ∈ [({ v37 .assign 0 with dstFmt := 0x00040000 }, 1), ({ v29 .assign 0 with srcPal := 0 }, 2), (v29 .and 0, 3)],
      accepting c.1 = true
      ∧ nextWith (exec .blit c.1) (fun t => accepting t && t.status.extractLsb' 0 4 == BitVec.ofNat 4 c.2) = true := by
  decide +kernel

theorem test_witness_AssignIsIdempotent :
    opField (v8 .assign).ctrl = .assign
      ∧ ∃ t, exec .blit (v8 .assign) = .next t ∧ (t.mem != (v8 .assign).mem) = true :=
  ⟨by decide +kernel, next_of_nextWith (by decide +kernel)⟩

/-- A 1 by 1 source at column 7 of its word, over a rectangle at the destination word's last bit (95 T3c). -/
theorem test_witness_OnePixelSourceFillsTheRectangle :
    ∀ s ∈ [{ v8 .assign with srcOrg := 7, srcSize := 0x00010001, rectOrg := 30, rectSize := 0x00010002 }],
      accepting s = true ∧ ∀ f ∈ [PixelFormat.mono1, .color8], contract (rowArgs s f f) = true
        ∧ (rowArgs s f f).src.bounds.w = 1 ∧ (rowArgs s f f).src.bounds.h = 1 ∧ (rowArgs s f f).off = ⟨0, 0⟩
        ∧ touchable s (rowArgs s f f) = true ∧ isAligned (rowArgs s f f).src = true
        ∧ isAligned (rowArgs s f f).dst = true := by decide +kernel

/-- The destination bytes meet the palette, and the source data. -/
theorem test_witness_OverlapIsRefused :
    ∀ s ∈ [{ v29 .assign 0 with srcPal := 0x201 }, { v29 .assign 0 with srcAddr := 0x202 }], accepting s = true
      ∧ isNoopTint (opField s.ctrl) (tintField s.ctrl) = false
      ∧ normalise engineLib (blitArgs s).dst.format (opField s.ctrl) (tintField s.ctrl) = some (.assign, 0)
      ∧ entryPasses .assign (blitArgs s) = true ∧ backedBytes s (paletteBytes (blitArgs s).src) = true
      ∧ ∃ q ∈ visited s (blitArgs s), ∃ b ∈ dstBytes (blitArgs s).dst q,
          b ∈ paletteBytes (blitArgs s).src ∨ ∃ p ∈ visited s (blitArgs s), b ∈ srcBytes (blitArgs s).src p := by
  decide +kernel

/-- For each name a pixel of the rectangle: the first source row at -1, an offset one past the source's last column or row
(linear, and circular), and a pixel one left of the destination bounds. -/
theorem test_witness_BrokenContractIsRefused :
    ∀ s ∈ [{ v37 .assign 0 with srcOrg := 0xFFFF0000 }, { v37 .assign 0 with offs := 4 },
        { fromRound with offs := 0x00020000 }, { v37 .assign 0 with dstOrg := 1 }],
      accepting s = true ∧ isNoopTint (opField s.ctrl) (tintField s.ctrl) = false
      ∧ normalise engineLib (blitArgs s).dst.format (opField s.ctrl) (tintField s.ctrl) = some (.assign, 0)
      ∧ entryPasses .assign (blitArgs s) = true ∧ touchable s (blitArgs s) = true
      ∧ inRect (blitArgs s).rect 0 0 = true ∧ inWindow s.cfg.rowtab (blitArgs s).dst 0 0 = true
      ∧ (blitArgs s).rect.y = 0 ∧ rowChecksPass s.cfg.rowtab (blitArgs s) 0 = true
      ∧ (negativeOperands (blitArgs s) = true ∨ offsetMisses (blitArgs s) = true
          ∨ inRect (blitArgs s).dst.bounds 0 0 = false) := by decide +kernel

/-- A board whose storage is the regions of a list. -/
def storedAt (l : List Region) : Cfg := { exampleBoard with backed := l }

/-- What each clause asks of a BLIT before its first pixel. -/
def unbackedCase (s : State) : Bool :=
  accepting s && !isNoopTint (opField s.ctrl) (tintField s.ctrl)
    && normalise engineLib (blitArgs s).dst.format (opField s.ctrl) (tintField s.ctrl)
        == some (opField s.ctrl, tintField s.ctrl)
    && entryPasses (opField s.ctrl) (blitArgs s)

/-- The palette of a BLIT to Mono1, and the source byte, the palette entry and the destination word or byte of a first
pixel. -/
theorem test_witness_UnbackedAccessFaults :
    (∀ s ∈ [{ v20 .set 0 with cfg := storedAt [⟨0x100, 1⟩, ⟨0x180, 1⟩] }], unbackedCase s = true
        ∧ (blitArgs s).dst.format = .mono1 ∧ firstUnbacked s (paletteBytes (blitArgs s).src) = some 0x181)
      ∧ (∀ s ∈ [{ v8 .set with cfg := storedAt [⟨0x100, 3⟩, ⟨0x200, 4⟩] }], unbackedCase s = true
        ∧ footprintsMeet (blitArgs s) (visited s (blitArgs s)) = false
        ∧ backedBytes s (paletteBytes (blitArgs s).src) = true
        ∧ (visited s (blitArgs s)).head?.map (fun p => firstUnbacked s (srcBytes (blitArgs s).src p)) = some (some 0x103))
      ∧ (∀ s ∈ [{ v29 .set 0 with cfg := storedAt [⟨0x100, 2⟩, ⟨0x180, 1⟩, ⟨0x200, 4⟩] }], unbackedCase s = true
        ∧ footprintsMeet (blitArgs s) (visited s (blitArgs s)) = false ∧ (blitArgs s).dst.format ≠ .mono1
        ∧ isPaletteFormat (blitArgs s).src.format = true
        ∧ (visited s (blitArgs s)).head?.map (fun p => (backedBytes s (srcBytes (blitArgs s).src p),
            isBacked s.cfg.backed (pixAddr ((blitArgs s).src.palette + indexPixel s (blitArgs s).src p.sx p.sy))))
          = some (true, false))
      ∧ (∀ c ∈ [({ v8 .set with cfg := storedAt [⟨0x100, 4⟩, ⟨0x200, 3⟩] }, 0x203),
          ({ v37 .or 0 with cfg := storedAt [⟨0x100, 4⟩] }, 0x200), ({ v44 .assign with cfg := storedAt [⟨0x100, 4⟩] }, 0x200)],
        unbackedCase c.1 = true ∧ footprintsMeet (blitArgs c.1) (visited c.1 (blitArgs c.1)) = false
        ∧ backedBytes c.1 (paletteBytes (blitArgs c.1).src) = true
        ∧ (visited c.1 (blitArgs c.1)).head?.map (fun p => (backedBytes c.1 (srcBytes (blitArgs c.1).src p),
            firstUnbacked c.1 (dstBytes (blitArgs c.1).dst p))) = some (true, some c.2))
      ∧ isBacked bareBoard.backed (0x210 : Word).toNat = false := by decide +kernel

/-- The clause for a C8C8 row called by key: its first source byte is not backed. -/
theorem test_witness_UnbackedAccessFaults_by_key :
    accepting { v37 .set 0 with cfg := bareBoard } = true
      ∧ footprintsMeet (rowArgs (v37 .set 0) .color8 .color8) (visited (v37 .set 0) (rowArgs (v37 .set 0) .color8 .color8))
          = false
      ∧ (visited (v37 .set 0) (rowArgs (v37 .set 0) .color8 .color8)).head?.map (fun p => isBacked bareBoard.backed
          (pixAddr (colorByte bareBoard.rowtab (rowArgs (v37 .set 0) .color8 .color8).src p.sx p.sy))) = some false := by
  decide +kernel

/-- A Clean framebuffer and non-empty marks, one of them left of the bounds (95 T4). -/
theorem test_witness_DirtyRectangleIsTheClippedBoundingBox :
    accepting (fresh monoBoard) = true ∧ isDirtyFlag (fresh monoBoard).fbFlags = false
      ∧ cfgWf (fresh monoBoard).cfg = true
      ∧ [((0x0014000A : Word), (0x0028001E : Word)), (0x0032FFFB, 0x00C8000A), (0x00000064, 0x0001002C)].all (fun r =>
        0 < (rectOf r.1 r.2).w && 0 < (rectOf r.1 r.2).h) = true := by decide +kernel

/-- The rows -1, 0, the last one and the one after it, of a linear and of the circular board; every clause is met. -/
theorem test_witness_GetRowReturnsTheDescriptor :
    ∀ c ∈ [exampleBoard, roundBoard], cfgWf c = true
      ∧ lowField ({ fresh c with arg0 := 0xFFFF } : State).arg0 = -1 ∧ lowField (fresh c).arg0 = 0
      ∧ lowField ({ fresh c with arg0 := 1 } : State).arg0 = (c.fbRows : Int) - 1
      ∧ lowField ({ fresh c with arg0 := 2 } : State).arg0 = c.fbRows := by decide +kernel

/-- Rows left, and none left at the end of the pass and when clean. -/
theorem test_witness_NextRowYieldsTheRow :
    (inv dirtyRound = true ∧ accepting dirtyRound = true ∧ rowsLeft dirtyRound = 2)
      ∧ (inv { dirtyRound with fbCursor := 1 } = true ∧ rowsLeft { dirtyRound with fbCursor := 1 } = 1)
      ∧ (inv { dirtyRound with fbCursor := 2 } = true ∧ rowsLeft { dirtyRound with fbCursor := 2 } = 0)
      ∧ (inv (fresh roundBoard) = true ∧ rowsLeft (fresh roundBoard) = 0) := by decide +kernel

/-- Both rows of the dirty rectangle, and the pass after the last one. -/
theorem test_witness_FlushYieldsEachDirtyRowOnce :
    inv dirtyRound = true ∧ accepting dirtyRound = true ∧ 2 ≤ rowsLeft dirtyRound
      ∧ nextWith (repeatExec .fbNextRow 2 dirtyRound) (fun t => t.rowOut.map RowEvent.row == [0, 1]) = true := by
  decide +kernel

end Sys2Proof.Tests
end

section
/-! PROOFS. Packed words, well-formed configurations and the configuration registers (10_state R41, R46, R49). -/

namespace Sys2Proof.Machine

/-! ### PT and SZ words: a field read back from a packed word (30_encoding R91, R92, R107) -/

/-- An integer that a 16-bit signed field holds (30_encoding R91). -/
def fitsField (x : Int) : Prop := -32768 ≤ x ∧ x < 32768

theorem fitsField_toInt (v : BitVec 16) : fitsField v.toInt := by
  unfold fitsField
  have := BitVec.two_mul_toInt_lt (x := v)
  have := BitVec.le_two_mul_toInt (x := v)
  omega

theorem fitsField_lowField (w : Word) : fitsField (lowField w) := fitsField_toInt _

theorem fitsField_highField (w : Word) : fitsField (highField w) := fitsField_toInt _

theorem toInt_ofInt_field {x : Int} (h : fitsField x) : (BitVec.ofInt 16 x).toInt = x := by
  unfold fitsField at h
  rw [BitVec.toInt_ofInt, Int.bmod_def]
  split <;> omega

@[simp] theorem packFields_low (lo hi : Int) : (packFields lo hi).extractLsb' 0 16 = BitVec.ofInt 16 lo :=
  BitVec.extractLsb'_append_eq_right

@[simp] theorem packFields_high (lo hi : Int) : (packFields lo hi).extractLsb' 16 16 = BitVec.ofInt 16 hi :=
  BitVec.extractLsb'_append_eq_left

theorem lowField_packFields {lo hi : Int} (h : fitsField lo) : lowField (packFields lo hi) = lo := by
  rw [lowField, packFields_low, toInt_ofInt_field h]

theorem highField_packFields {lo hi : Int} (h : fitsField hi) : highField (packFields lo hi) = hi := by
  rw [highField, packFields_high, toInt_ofInt_field h]

/-! ### What a well-formed configuration gives (10_state R45, 47_framebuffer R281, R282) -/

theorem cfgWf_size {c : Cfg} (h : cfgWf c = true) :
    (1 ≤ c.fbCols ∧ c.fbCols ≤ 32767) ∧ 1 ≤ c.fbRows ∧ c.fbRows ≤ 32767 := by
  simp only [cfgWf, Bool.and_eq_true, decide_eq_true_eq] at h
  obtain ⟨⟨⟨⟨⟨⟨⟨⟨_, hcols⟩, hrows⟩, _⟩, _⟩, _⟩, _⟩, _⟩, _⟩ := h
  exact ⟨hcols, hrows⟩

theorem cfgWf_space {c : Cfg} (h : cfgWf c = true) : c.fbBase + sizeBytes c ≤ 4294967296 := by
  simp only [cfgWf, Bool.and_eq_true, decide_eq_true_eq] at h
  obtain ⟨⟨⟨_, hspace⟩, _⟩, _⟩ := h
  exact hspace

theorem cfgWf_format {c : Cfg} (h : cfgWf c = true) :
    c.fbFormat = .mono1 ∨ c.fbFormat = .color8 ∨ c.fbFormat = .color8Circular := by
  simp only [cfgWf, Bool.and_eq_true] at h
  obtain ⟨⟨⟨⟨⟨⟨⟨⟨hf, _⟩, _⟩, _⟩, _⟩, _⟩, _⟩, _⟩, _⟩ := h
  cases hc : c.fbFormat <;> simp_all [isFbFormat]

theorem cfgWf_rowtab {c : Cfg} (h : cfgWf c = true) : ∀ e ∈ c.rowtab, e.minX ≤ e.maxX := by
  simp only [cfgWf, rowtabWf, Bool.and_eq_true, List.all_eq_true, decide_eq_true_eq] at h
  obtain ⟨⟨⟨⟨⟨_, htab, _⟩, _⟩, _⟩, _⟩, _⟩ := h
  exact fun e he => (htab e he).1

theorem cfgWf_circular {c : Cfg} (h : cfgWf c = true) (hf : c.fbFormat = .color8Circular) :
    c.rowtab.length = c.fbRows := by
  simp only [cfgWf, hf, Bool.and_eq_true, Bool.or_eq_true, bne_self_eq_false, Bool.false_eq_true, false_or,
    beq_iff_eq] at h
  obtain ⟨⟨⟨⟨_, hlen, _⟩, _⟩, _⟩, _⟩ := h
  exact hlen

/-- A framebuffer owns a byte (47_framebuffer R282). -/
theorem sizeBytes_pos {c : Cfg} (h : cfgWf c = true) : 0 < sizeBytes c := by
  obtain ⟨⟨hcols, _⟩, hrows, _⟩ := cfgWf_size h
  rcases cfgWf_format h with hf | hf | hf
  · have : sizeBytes c = (c.fbCols / 32 + 1) * 4 * c.fbRows := by simp [sizeBytes, bytesPerRow, hf]
    rw [this]; positivity
  · have : sizeBytes c = c.fbCols * c.fbRows := by simp [sizeBytes, bytesPerRow, hf]
    rw [this]; positivity
  · have hlen := cfgWf_circular h hf
    cases htab : c.rowtab with
    | nil => rw [htab, List.length_nil] at hlen; omega
    | cons e es =>
      have hstored : 0 < storedColumns e := by
        have := cfgWf_rowtab h e (by simp [htab])
        unfold storedColumns; omega
      have : sizeBytes c = storedColumns e + (es.map storedColumns).sum := by
        simp [sizeBytes, hf, ← hlen, htab]
      omega

theorem fbBase_lt {c : Cfg} (h : cfgWf c = true) : c.fbBase < 4294967296 := by
  have := sizeBytes_pos h
  have := cfgWf_space h
  omega

theorem bytesPerRow_lt {c : Cfg} (h : cfgWf c = true) : bytesPerRow c < 65536 := by
  obtain ⟨⟨_, hcols⟩, _⟩ := cfgWf_size h
  rcases cfgWf_format h with hf | hf | hf <;> simp only [bytesPerRow, hf] <;> omega

/-! ### The configuration registers (10_state R41, R46) -/

theorem fbSizeReg_fields {c : Cfg} (h : cfgWf c = true) :
    lowField (fbSizeReg c) = c.fbCols ∧ highField (fbSizeReg c) = c.fbRows := by
  obtain ⟨⟨_, hcols⟩, _, hrows⟩ := cfgWf_size h
  exact ⟨lowField_packFields ⟨by omega, by omega⟩, highField_packFields ⟨by omega, by omega⟩⟩

/-- The low half of FB_CFG is the format code alone (10_state R46). -/
theorem fbCfgReg_low (c : Cfg) : (fbCfgReg c).extractLsb' 0 16 = (fmtCode c.fbFormat).zeroExtend 16 := by
  rw [fbCfgReg, packFields_low]
  cases c.fbFormat <;> rfl

theorem fbCfgReg_format (c : Cfg) : (fbCfgReg c).extractLsb' 0 3 = fmtCode c.fbFormat := by
  have h : (fbCfgReg c).extractLsb' 0 3 = ((fbCfgReg c).extractLsb' 0 16).extractLsb' 0 3 := by
    rw [BitVec.extractLsb'_extractLsb'_of_le (by omega)]
  rw [h, fbCfgReg_low]
  cases c.fbFormat <;> rfl

theorem fbCfgReg_reserved (c : Cfg) : (fbCfgReg c).extractLsb' 3 13 = 0 := by
  have h : (fbCfgReg c).extractLsb' 3 13 = ((fbCfgReg c).extractLsb' 0 16).extractLsb' 3 13 := by
    rw [BitVec.extractLsb'_extractLsb'_of_le (by omega)]
  rw [h, fbCfgReg_low]
  cases c.fbFormat <;> rfl

theorem fbCfgReg_bytesPerRow {c : Cfg} (h : cfgWf c = true) :
    ((fbCfgReg c).extractLsb' 16 16).toNat = bytesPerRow c := by
  rw [fbCfgReg, packFields_high, BitVec.ofInt_natCast, BitVec.toNat_ofNat]
  exact Nat.mod_eq_of_lt (bytesPerRow_lt h)

/-- The offsets without a register, and CMD, read 0 (10_state R49). -/
theorem regRead_unmapped {off : Nat} (s : State)
    (h : off = 0 ∨ off = 0x1C ∨ (0x34 ≤ off ∧ off ≤ 0x3C) ∨ (0x50 ≤ off ∧ off ≤ 0x5C)
      ∨ (0x70 ≤ off ∧ off ≤ 0x7C) ∨ 0x9C ≤ off) : regRead off s = 0 := by
  unfold regRead
  split
  case h_27 => rfl
  all_goals omega

/-- Settles O13, field by field from the lemmas about FB_SIZE and FB_CFG. -/
theorem configurationRegistersReadTheirFields : Obligations.ConfigurationRegistersReadTheirFields := by
  intro s h
  obtain ⟨hcols, hrows⟩ := fbSizeReg_fields h
  have hbase : (BitVec.ofNat 32 s.cfg.fbBase).toNat = s.cfg.fbBase := by
    rw [BitVec.toNat_ofNat]; exact Nat.mod_eq_of_lt (fbBase_lt h)
  exact ⟨hcols, hrows, hbase, fbCfgReg_format _, fbCfgReg_reserved _, fbCfgReg_bytesPerRow h,
    fun off hoff => regRead_unmapped s hoff, fun _ => rfl⟩

end Sys2Proof.Machine
end

section
/-! PROOFS. Register writes and reads (10_state R20, R25, R49). -/

namespace Sys2Proof.Machine

/-! ### A register read after a register is replaced (10_state R20, R49) -/

section
variable (o : Nat) (s : State) (w : Word)

@[simp] theorem regRead_with_errlog : regRead o { s with errlog := w } = if o = 0x08 then w else regRead o s := by
  unfold regRead; split <;> simp_all
@[simp] theorem regRead_with_arg0 : regRead o { s with arg0 := w } = if o = 0x18 then w else regRead o s := by
  unfold regRead; split <;> simp_all
@[simp] theorem regRead_with_srcAddr : regRead o { s with srcAddr := w } = if o = 0x20 then w else regRead o s := by
  unfold regRead; split <;> simp_all
@[simp] theorem regRead_with_srcFmt : regRead o { s with srcFmt := w } = if o = 0x24 then w else regRead o s := by
  unfold regRead; split <;> simp_all
@[simp] theorem regRead_with_srcOrg : regRead o { s with srcOrg := w } = if o = 0x28 then w else regRead o s := by
  unfold regRead; split <;> simp_all
@[simp] theorem regRead_with_srcSize : regRead o { s with srcSize := w } = if o = 0x2C then w else regRead o s := by
  unfold regRead; split <;> simp_all
@[simp] theorem regRead_with_srcPal : regRead o { s with srcPal := w } = if o = 0x30 then w else regRead o s := by
  unfold regRead; split <;> simp_all
@[simp] theorem regRead_with_dstAddr : regRead o { s with dstAddr := w } = if o = 0x40 then w else regRead o s := by
  unfold regRead; split <;> simp_all
@[simp] theorem regRead_with_dstFmt : regRead o { s with dstFmt := w } = if o = 0x44 then w else regRead o s := by
  unfold regRead; split <;> simp_all
@[simp] theorem regRead_with_dstOrg : regRead o { s with dstOrg := w } = if o = 0x48 then w else regRead o s := by
  unfold regRead; split <;> simp_all
@[simp] theorem regRead_with_dstSize : regRead o { s with dstSize := w } = if o = 0x4C then w else regRead o s := by
  unfold regRead; split <;> simp_all
@[simp] theorem regRead_with_rectOrg : regRead o { s with rectOrg := w } = if o = 0x60 then w else regRead o s := by
  unfold regRead; split <;> simp_all
@[simp] theorem regRead_with_rectSize : regRead o { s with rectSize := w } = if o = 0x64 then w else regRead o s := by
  unfold regRead; split <;> simp_all
@[simp] theorem regRead_with_offs : regRead o { s with offs := w } = if o = 0x68 then w else regRead o s := by
  unfold regRead; split <;> simp_all
@[simp] theorem regRead_with_ctrl : regRead o { s with ctrl := w } = if o = 0x6C then w else regRead o s := by
  unfold regRead; split <;> simp_all

end

/-- Settles O12, register by register: each write answers one record update, and the read-over-write lemmas give what
every offset reads after it. -/
theorem registerWritesKeepOnlyWritableBits : Obligations.RegisterWritesKeepOnlyWritableBits := by
  intro off w s hoff
  unfold regWrite
  split
  case h_1 => contradiction
  case h_17 => exact ⟨s, rfl, by simp_all, fun _ _ => rfl, rfl, rfl, rfl⟩
  all_goals exact ⟨_, rfl, by simp [argMask, fmtMask, ctrlMask], fun o ho => by simp [ho], rfl, rfl, rfl⟩

end Sys2Proof.Machine
end

section
/-! PROOFS. STATUS and ERRLOG stay legal (10_state R24, R25). -/

namespace Sys2Proof.Machine

/-! ### STATUS, field by field (10_state R24) -/

@[simp] theorem statusCode_withCode (st : Word) (c : ResultCode) : statusCode (withCode st c) = codeBits c :=
  BitVec.extractLsb'_append_eq_right

@[simp] theorem statusCause_withCode (st : Word) (c : ResultCode) :
    statusCause (withCode st c) = statusCause st := by
  apply BitVec.eq_of_getLsbD_eq
  intro i hi
  have h4 : ¬ 8 + i < 4 := by omega
  have h28 : 8 + i - 4 < 28 := by omega
  have hplace : 4 + (8 + i - 4) = 8 + i := by omega
  simp only [statusCause, withCode, BitVec.getLsbD_extractLsb', BitVec.getLsbD_append]
  simp [hi, h4, h28, hplace]

@[simp] theorem statusFatal_withCode (st : Word) (c : ResultCode) :
    statusFatal (withCode st c) = statusFatal st := by
  simp only [statusFatal, withCode, BitVec.getLsbD_append]
  simp

@[simp] theorem statusCode_withFatal (st : Word) (c : FatalCause) :
    statusCode (withFatal st c) = statusCode st := by
  apply BitVec.eq_of_getLsbD_eq
  intro i hi
  have h8 : i < 8 := by omega
  simp only [statusCode, withFatal, BitVec.getLsbD_extractLsb', BitVec.getLsbD_append]
  simp [hi, h8]

@[simp] theorem statusCause_withFatal (st : Word) (c : FatalCause) :
    statusCause (withFatal st c) = causeBits c := by
  apply BitVec.eq_of_getLsbD_eq
  intro i hi
  simp only [statusCause, withFatal, BitVec.getLsbD_extractLsb', BitVec.getLsbD_append]
  simp [hi]

@[simp] theorem statusFatal_withFatal (st : Word) (c : FatalCause) : statusFatal (withFatal st c) = true := by
  simp only [statusFatal, withFatal, BitVec.getLsbD_append]
  simp

/-- The reserved bits of STATUS (10_state R24). -/
def statusReserved : Word := 0x7FFFF0F0

theorem withCode_reserved (st : Word) (c : ResultCode) :
    withCode st c &&& statusReserved = st &&& statusReserved := by
  have hcode : BitVec.ofNat 32 (codeBits c).toNat &&& statusReserved = 0 := by cases c <;> rfl
  have hkept : (0xFFFFFFF0 : Word) &&& statusReserved = statusReserved := by decide
  calc withCode st c &&& statusReserved
      = (st &&& 0xFFFFFFF0 ||| BitVec.ofNat 32 (codeBits c).toNat) &&& statusReserved := by
        rw [withCode_error, errorStatus]
    _ = (st &&& (0xFFFFFFF0 &&& statusReserved)) ||| 0 := by
        rw [BitVec.and_or_distrib_right, BitVec.and_assoc, hcode]
    _ = st &&& statusReserved := by rw [hkept]; exact BitVec.or_zero

theorem withFatal_reserved (st : Word) (c : FatalCause) :
    withFatal st c &&& statusReserved = st &&& statusReserved := by
  have hcause : BitVec.ofNat 32 ((causeBits c).toNat * 256) &&& statusReserved = 0 := by cases c <;> rfl
  have hfatal : (0x80000000 : Word) &&& statusReserved = 0 := by decide
  have hkept : (0x7FFFF0FF : Word) &&& statusReserved = statusReserved := by decide
  calc withFatal st c &&& statusReserved
      = (st &&& 0x7FFFF0FF ||| 0x80000000 ||| BitVec.ofNat 32 ((causeBits c).toNat * 256)) &&& statusReserved := by
        rw [withFatal_halt, haltStatus]
    _ = (st &&& (0x7FFFF0FF &&& statusReserved)) ||| 0 ||| 0 := by
        rw [BitVec.and_or_distrib_right, BitVec.and_or_distrib_right, BitVec.and_assoc, hcause, hfatal]
    _ = st &&& statusReserved := by rw [hkept]; simp

theorem statusLegal_iff (st : Word) : statusLegal st = true ↔
    st &&& statusReserved = 0 ∧ (statusCode st).toNat ≤ 5
      ∧ (if statusFatal st then statusCause st = 1 ∨ statusCause st = 2 else statusCause st = 0) := by
  simp only [statusLegal, statusReserved, statusCode, statusFatal, statusCause, Bool.and_eq_true, beq_iff_eq,
    decide_eq_true_eq, and_assoc]
  by_cases h : st.getLsbD 31 = true
  · simp only [h, if_true, Bool.or_eq_true, beq_iff_eq]
  · simp only [h, if_false, beq_iff_eq, Bool.false_eq_true]

/-- A result code written keeps STATUS legal (30_encoding R103). -/
theorem statusLegal_withCode {st : Word} (c : ResultCode) (h : statusLegal st = true) :
    statusLegal (withCode st c) = true := by
  rw [statusLegal_iff] at h ⊢
  obtain ⟨hreserved, _, hcause⟩ := h
  have hcode : (codeBits c).toNat ≤ 5 := by cases c <;> decide
  simp only [withCode_reserved, statusCode_withCode, statusFatal_withCode, statusCause_withCode]
  exact ⟨hreserved, hcode, hcause⟩

/-- The fatal halt keeps STATUS legal (60_exceptions R318). -/
theorem statusLegal_withFatal {st : Word} (c : FatalCause) (h : statusLegal st = true) :
    statusLegal (withFatal st c) = true := by
  rw [statusLegal_iff] at h ⊢
  obtain ⟨hreserved, hcode, _⟩ := h
  have hcause : causeBits c = 1 ∨ causeBits c = 2 := by cases c <;> simp [causeBits]
  simp only [withFatal_reserved, statusCode_withFatal, statusFatal_withFatal, statusCause_withFatal]
  exact ⟨hreserved, hcode, hcause⟩

theorem statusLegal_zero : statusLegal 0 = true := by decide

/-! ### Registers under their masks (10_state R25, R49) -/

/-- An error sets none of the bits of ERRLOG that hold no error (10_state R25). -/
theorem errlog_or_logBit {log : Word} (c : ResultCode) (h : log &&& 0xFFFFFFD5 = 0) :
    (log ||| logBit c) &&& 0xFFFFFFD5 = 0 := by
  have hbit : logBit c &&& 0xFFFFFFD5 = 0 := by cases c <;> rfl
  rw [BitVec.and_or_distrib_right, h, hbit]; rfl

/-- Clearing bits leaves the bits that were zero zero (10_state R25). -/
theorem and_right_zero {a m : Word} (b : Word) (h : a &&& m = 0) : (a &&& b) &&& m = 0 := by
  rw [BitVec.and_assoc, BitVec.and_comm b m, ← BitVec.and_assoc, h]
  exact BitVec.zero_and

/-- A write through a mask leaves the bits outside it zero (10_state R49). -/
theorem and_disjoint_masks {m r : Word} (w : Word) (h : m &&& r = 0) : (w &&& m) &&& r = 0 := by
  rw [BitVec.and_assoc, h]
  exact BitVec.and_zero

end Sys2Proof.Machine
end

section
/-! PROOFS. How a BLIT and a row over the dispatch key leave the state (41_dispatch R160 to R171). -/

namespace Sys2Proof.Machine

/-! ### How a BLIT leaves the state (41_dispatch R170, R171, 60_exceptions R311, R318) -/

/-- What a next state of a BLIT-family command can be: the old one (in the halt), or one that differs in PIXMEM, STATUS
and ERRLOG alone, as the end of the command has it. -/
inductive BlitEnd (s : State) : State → Prop where
  | halted : BlitEnd s s
  | ok {m : Memory} (hm : memWf s.mem = true → memWf m = true) : BlitEnd s (endOk (setMem s m))
  | fatal (c : FatalCause) {m : Memory} (hm : memWf s.mem = true → memWf m = true) :
      BlitEnd s (raiseFatal c (setMem s m))
  | error {c : ResultCode} (hc : c ∈ [ResultCode.unsupportedFormatPair, .missingPalette, .unsupportedOperator]) :
      BlitEnd s (raiseError c s)

/-- An answer whose next state, if it has one, is a BLIT's. -/
def EndsAsBlit (s : State) (r : Answer) : Prop := ∀ t, r = .next t → BlitEnd s t

/-- An operation on PIXMEM keeps its canonical form (20_memory R60). -/
def KeepsMemWf (f : Memory → Except Stop Memory) : Prop :=
  ∀ m m', f m = .ok m' → memWf m = true → memWf m' = true

theorem keepsMemWf_writeByte (e : PixEnv) (x : Int) (v : Byte) : KeepsMemWf fun m => writeByte e m x v :=
  fun _ _ h hm => memWf_writeByte h hm

theorem keepsMemWf_writeWord (e : PixEnv) (x : Int) (v : Word) : KeepsMemWf fun m => writeWord e m x v :=
  fun _ _ h hm => memWf_writeWord h hm

/-- Reading PIXMEM before an operation does not matter to its canonical form. -/
theorem keepsMemWf_bind {α : Type} {read : Memory → Except Stop α} {f : α → Memory → Except Stop Memory}
    (hf : ∀ v, KeepsMemWf (f v)) : KeepsMemWf fun m => read m >>= fun v => f v m := by
  intro m m' h hm
  obtain ⟨v, _, hv⟩ := except_bind_eq_ok.1 h
  exact hf v m m' hv hm

/-! What each routine's pixel does to PIXMEM. -/

theorem keepsMemWf_combineCopy (e : PixEnv) (c : Color) (x : Int) : KeepsMemWf (combineCopy e c x) :=
  keepsMemWf_writeByte e x c

theorem keepsMemWf_combineBlend (lib : ColorLib) (paint : Color → Color) (e : PixEnv) (c : Color) (x : Int) :
    KeepsMemWf (combineBlend lib paint e c x) :=
  keepsMemWf_bind fun _ => keepsMemWf_writeByte e x _

theorem keepsMemWf_palc8Pixel {combine : Combine} (hc : ∀ e c x, KeepsMemWf (combine e c x)) (e : PixEnv)
    (a : BlitArgs) (p : Px) : KeepsMemWf (palc8Pixel combine e a p) :=
  keepsMemWf_bind fun _ => keepsMemWf_bind fun c => hc e c _

theorem keepsMemWf_c8c8Pixel {combine : Combine} (hc : ∀ e c x, KeepsMemWf (combine e c x)) (e : PixEnv)
    (a : BlitArgs) (p : Px) : KeepsMemWf (c8c8Pixel combine e a p) :=
  keepsMemWf_bind fun c => hc e c _

theorem keepsMemWf_m1c8Pixel (expand : Expand) (e : PixEnv) (a : BlitArgs) (p : Px) :
    KeepsMemWf (m1c8Pixel expand e a p) := by
  refine keepsMemWf_bind fun bit => ?_
  cases expand bit with
  | none => intro m m' h hm; cases h; exact hm
  | some c => exact keepsMemWf_writeByte e _ c

theorem keepsMemWf_m1m1Pixel (form : WordForm) (e : PixEnv) (a : BlitArgs) (p : Px) :
    KeepsMemWf (m1m1Pixel form e a p) :=
  keepsMemWf_bind fun _ => keepsMemWf_bind fun _ => keepsMemWf_writeWord e _ _

theorem keepsMemWf_palm1Pixel (table : List DitherEntry) (e : PixEnv) (a : BlitArgs) (p : Px) :
    KeepsMemWf (palm1Pixel table e a p) :=
  keepsMemWf_bind fun _ => keepsMemWf_bind fun _ => keepsMemWf_writeWord e _ _

/-! The shared operations. -/

theorem stopAnswer_ends (s : State) (x : Stop) : EndsAsBlit s (stopAnswer x) := by
  intro t h; cases x <;> cases h

theorem refused_ends (s : State) (r : Refusal) : EndsAsBlit s (.refused r) := by
  intro t h; cases h

theorem endOk_ends (s : State) : EndsAsBlit s (.next (endOk s)) := by
  intro t h; cases h; exact .ok (m := s.mem) id

theorem raiseError_ends (s : State) {c : ResultCode}
    (hc : c ∈ [ResultCode.unsupportedFormatPair, .missingPalette, .unsupportedOperator]) :
    EndsAsBlit s (.next (raiseError c s)) := by
  intro t h; cases h; exact .error hc

theorem raiseFatal_ends (s : State) (c : FatalCause) : EndsAsBlit s (.next (raiseFatal c s)) := by
  intro t h; cases h; exact .fatal c (m := s.mem) id

theorem runBlit_ends {f : Px → Memory → Except Stop Memory} (hf : ∀ p, KeepsMemWf (f p)) (a : BlitArgs)
    (s : State) : EndsAsBlit s (runBlit f a s) := by
  intro t h
  obtain ⟨_, m, hrun, hend⟩ := runBlit_next h
  have hm : memWf s.mem = true → memWf m = true := runPixels_keeps (fun p _ => hf p) hrun
  obtain ⟨_, rfl⟩ | ⟨c, _, rfl⟩ := hend
  · exact .ok hm
  · exact .fatal c hm

theorem rejectBlit_ends (look : Px → Memory → Except Stop Unit) (a : BlitArgs) (s : State) :
    EndsAsBlit s (rejectBlit look a s) := by
  intro t h
  obtain ⟨_, rfl⟩ | ⟨_, ⟨_, rfl⟩ | ⟨c, _, rfl⟩⟩ := rejectBlit_next h
  · exact .error (by simp)
  · exact .ok (m := s.mem) id
  · exact .fatal c (m := s.mem) id

theorem withPalette_ends {a : BlitArgs} {s : State} {rest : State → Answer} (h : EndsAsBlit s (rest s)) :
    EndsAsBlit s (withPalette a s rest) := by
  unfold withPalette
  split
  · exact raiseError_ends s (by simp)
  · exact h

theorem withAlignment_ends {ok : Bool} {s : State} {rest : State → Answer} (h : EndsAsBlit s (rest s)) :
    EndsAsBlit s (withAlignment ok s rest) := by
  unfold withAlignment
  split
  · exact h
  · exact raiseFatal_ends s _

theorem whenAccepting_ends {f : State → Answer} (h : ∀ s, EndsAsBlit s (f s)) (s : State) :
    EndsAsBlit s (whenAccepting s f) := by
  unfold whenAccepting
  split
  · intro t ht; cases ht; exact .halted
  · exact h s

/-! The five routines. -/

theorem m1m1_ends (form : WordForm) (a : BlitArgs) (s : State) : EndsAsBlit s (m1m1 form a s) :=
  withAlignment_ends (runBlit_ends (keepsMemWf_m1m1Pixel form _ a) a s)

theorem palm1_ends (lib : ColorLib) (recolor : Color → Color) (a : BlitArgs) (s : State) :
    EndsAsBlit s (palm1 lib recolor a s) := by
  refine withPalette_ends (withAlignment_ends ?_)
  split
  · exact stopAnswer_ends s _
  · exact runBlit_ends (keepsMemWf_palm1Pixel _ _ a) a s

theorem palm1Rejected_ends (lib : ColorLib) (a : BlitArgs) (s : State) : EndsAsBlit s (palm1Rejected lib a s) := by
  refine withPalette_ends (withAlignment_ends ?_)
  split
  · exact stopAnswer_ends s _
  · exact rejectBlit_ends _ a s

theorem palc8Copy_ends (a : BlitArgs) (s : State) : EndsAsBlit s (palc8 combineCopy a s) :=
  withPalette_ends (runBlit_ends (keepsMemWf_palc8Pixel keepsMemWf_combineCopy _ a) a s)

theorem palc8Blend_ends (lib : ColorLib) (paint : Color → Color) (a : BlitArgs) (s : State) :
    EndsAsBlit s (palc8 (combineBlend lib paint) a s) :=
  withPalette_ends (runBlit_ends (keepsMemWf_palc8Pixel (keepsMemWf_combineBlend lib paint) _ a) a s)

theorem palc8Rejected_ends (a : BlitArgs) (s : State) : EndsAsBlit s (palc8Rejected a s) :=
  withPalette_ends (rejectBlit_ends _ a s)

theorem c8c8Copy_ends (a : BlitArgs) (s : State) : EndsAsBlit s (c8c8 combineCopy a s) :=
  runBlit_ends (keepsMemWf_c8c8Pixel keepsMemWf_combineCopy _ a) a s

theorem c8c8Blend_ends (lib : ColorLib) (paint : Color → Color) (a : BlitArgs) (s : State) :
    EndsAsBlit s (c8c8 (combineBlend lib paint) a s) :=
  runBlit_ends (keepsMemWf_c8c8Pixel (keepsMemWf_combineBlend lib paint) _ a) a s

theorem m1c8_ends (expand : Expand) (a : BlitArgs) (s : State) : EndsAsBlit s (m1c8 expand a s) :=
  withAlignment_ends (runBlit_ends (keepsMemWf_m1c8Pixel expand _ a) a s)

theorem unsupportedPair_ends (s : State) : EndsAsBlit s (unsupportedPair s) := raiseError_ends s (by simp)

/-! The rows of a routine, by operator. -/

theorem runM1m1_ends (a : BlitArgs) (s : State) (op : CompOp) : EndsAsBlit s (runM1m1 a s op) := by
  cases op with
  | assign | assignInverted | or | and | clear | set => exact m1m1_ends _ a s
  | tint | tintLuminance => exact refused_ends s _

theorem runPalm1P1_ends (lib : ColorLib) (a : BlitArgs) (s : State) (op : CompOp) :
    EndsAsBlit s (runPalm1P1 lib a s op) := by
  cases op with
  | assign | set | tint | tintLuminance => exact palm1_ends lib _ a s
  | assignInverted | or | and | clear => exact palm1Rejected_ends lib a s

theorem runPalm1P2_ends (lib : ColorLib) (a : BlitArgs) (s : State) (op : CompOp) :
    EndsAsBlit s (runPalm1P2 lib a s op) := by
  cases op with
  | assign | set | tint | tintLuminance => exact palm1_ends lib _ a s
  | assignInverted | or | and | clear => exact palm1Rejected_ends lib a s

theorem runPalc8P1_ends (lib : ColorLib) (a : BlitArgs) (s : State) (op : CompOp) :
    EndsAsBlit s (runPalc8P1 lib a s op) := by
  cases op with
  | assign => exact palc8Copy_ends a s
  | set | tint | tintLuminance => exact palc8Blend_ends lib _ a s
  | assignInverted | or | and | clear => exact palc8Rejected_ends a s

theorem runPalc8P24_ends (lib : ColorLib) (a : BlitArgs) (s : State) (op : CompOp) :
    EndsAsBlit s (runPalc8P24 lib a s op) := by
  cases op with
  | assign => exact palc8Copy_ends a s
  | set | tint | tintLuminance => exact palc8Blend_ends lib _ a s
  | assignInverted | or | and | clear => exact palc8Rejected_ends a s

theorem runC8c8_ends (lib : ColorLib) (a : BlitArgs) (s : State) (op : CompOp) :
    EndsAsBlit s (runC8c8 lib a s op) := by
  cases op with
  | assign | assignInverted | or | and | clear => exact c8c8Copy_ends a s
  | set | tint | tintLuminance => exact c8c8Blend_ends lib _ a s

theorem runM1c8_ends (a : BlitArgs) (s : State) (op : CompOp) : EndsAsBlit s (runM1c8 a s op) := by
  cases op <;> exact m1c8_ends _ a s

theorem runRoutine_ends (lib : ColorLib) (op : CompOp) (a : BlitArgs) (s : State) :
    EndsAsBlit s (runRoutine lib op a s) := by
  unfold runRoutine
  split
  · exact unsupportedPair_ends s
  · exact runM1m1_ends a s op
  · exact runPalm1P1_ends lib a s op
  · exact runPalm1P2_ends lib a s op
  · exact runPalc8P1_ends lib a s op
  · exact runPalc8P24_ends lib a s op
  · exact runC8c8_ends lib a s op
  · exact runM1c8_ends a s op

theorem blitTiled_ends (lib : ColorLib) (op : CompOp) (a : BlitArgs) (s : State) :
    EndsAsBlit s (blitTiled lib op a s) := by
  unfold blitTiled
  split
  · exact endOk_ends s
  · split
    · exact endOk_ends s
    · exact runRoutine_ends lib _ _ s

/-! ### The instructions -/

/-- The commands that are neither a BLIT nor a row over the dispatch key (30_encoding R100). -/
def otherCommands : List Instr :=
  [.isNoop, .fbClear, .fbMarkDirty, .fbGetRow, .fbSizeBytes, .fbHasNextRow, .fbNextRow, .fbResetDirty]

/-- Every other instruction ends as a BLIT does (30_encoding R105). -/
theorem exec_ends {i : Instr} (hi : i ∉ otherCommands) (s : State) : EndsAsBlit s (exec i s) := by
  cases i with
  | isNoop | fbClear | fbMarkDirty | fbGetRow | fbSizeBytes | fbHasNextRow | fbNextRow | fbResetDirty =>
    simp [otherCommands] at hi
  | blit | blitAt => rw [exec]; exact whenAccepting_ends (fun s => blitTiled_ends _ _ _ s) s
  | m1m1Assign | m1m1AssignInverted | m1m1Or | m1m1And | m1m1Clear | m1m1Set =>
    rw [exec]; exact whenAccepting_ends (fun s => m1m1_ends _ _ s) s
  | m1m1Tint | m1m1TintLuminance => exact refused_ends s _
  | palm1AssignP1 | palm1AssignP2 | palm1SetP1 | palm1SetP2 | palm1TintP1 | palm1TintP2 | palm1TintLuminanceP1
  | palm1TintLuminanceP2 => rw [exec]; exact whenAccepting_ends (fun s => palm1_ends _ _ _ s) s
  | palm1AssignInvertedP1 | palm1AssignInvertedP2 | palm1OrP1 | palm1OrP2 | palm1AndP1 | palm1AndP2 | palm1ClearP1
  | palm1ClearP2 => rw [exec]; exact whenAccepting_ends (fun s => palm1Rejected_ends _ _ s) s
  | palc8AssignP1 | palc8AssignP24 => rw [exec]; exact whenAccepting_ends (fun s => palc8Copy_ends _ s) s
  | palc8SetP1 | palc8SetP24 | palc8TintP1 | palc8TintP24 | palc8TintLuminanceP1 | palc8TintLuminanceP24 =>
    rw [exec]; exact whenAccepting_ends (fun s => palc8Blend_ends _ _ _ s) s
  | palc8AssignInvertedP1 | palc8AssignInvertedP24 | palc8OrP1 | palc8OrP24 | palc8AndP1 | palc8AndP24 | palc8ClearP1
  | palc8ClearP24 => rw [exec]; exact whenAccepting_ends (fun s => palc8Rejected_ends _ s) s
  | c8c8Assign | c8c8AssignInverted | c8c8Or | c8c8And | c8c8Clear =>
    rw [exec]; exact whenAccepting_ends (fun s => c8c8Copy_ends _ s) s
  | c8c8Set | c8c8Tint | c8c8TintLuminance => rw [exec]; exact whenAccepting_ends (fun s => c8c8Blend_ends _ _ _ s) s
  | m1c8Assign | m1c8AssignInverted | m1c8Or | m1c8And | m1c8Clear | m1c8Set | m1c8Tint | m1c8TintLuminance =>
    rw [exec]; exact whenAccepting_ends (fun s => m1c8_ends _ _ s) s
  | unsupportedDPalette1 | unsupportedDPalette24 | unsupportedDReserved | unsupportedMono1FromP4
  | unsupportedMono1FromC8OrReserved | unsupportedC8FromReserved =>
    rw [exec]; exact whenAccepting_ends unsupportedPair_ends s

end Sys2Proof.Machine
end

section
/-! PROOFS. The invariant, kept by every host operation (10_state R24, R25, R49, 20_memory R60, 47_framebuffer R287,
R299). -/

namespace Sys2Proof.Machine

/-! ### The invariant, clause by clause -/


/-- A rectangle that the framebuffer's dirty rectangle may be (47_framebuffer R287). -/
structure DirtyIn (c : Cfg) (d : Rect) : Prop where
  x : 0 ≤ d.x
  y : 0 ≤ d.y
  w : 0 ≤ d.w
  h : 0 ≤ d.h
  right : d.w = 0 ∨ maxX d ≤ c.fbCols
  bottom : d.h = 0 ∨ maxY d ≤ c.fbRows

theorem dirtyInBounds_iff {s : State} : dirtyInBounds s = true ↔ DirtyIn s.cfg (dirtyRect s) := by
  simp only [dirtyInBounds, Bool.and_eq_true, Bool.or_eq_true, decide_eq_true_eq, beq_iff_eq]
  constructor
  · rintro ⟨⟨⟨⟨⟨hx, hy⟩, hw⟩, hh⟩, hright⟩, hbottom⟩
    exact ⟨hx, hy, hw, hh, hright, hbottom⟩
  · rintro ⟨hx, hy, hw, hh, hright, hbottom⟩
    exact ⟨⟨⟨⟨⟨hx, hy⟩, hw⟩, hh⟩, hright⟩, hbottom⟩

/-- `inv` with a name for each of its clauses. -/
structure Inv (s : State) : Prop where
  memory : memWf s.mem = true
  config : cfgWf s.cfg = true
  arg0 : s.arg0 &&& 0xFFFF0000 = 0
  srcFmt : s.srcFmt &&& 0x0000FFF8 = 0
  dstFmt : s.dstFmt &&& 0x0000FFF8 = 0
  ctrl : s.ctrl &&& 0xFFFF00F8 = 0
  status : statusLegal s.status = true
  errlog : s.errlog &&& 0xFFFFFFD5 = 0
  flags : s.fbFlags.toNat ≤ 1
  cursor : s.fbCursor.toNat ≤ s.cfg.fbRows
  dirty : DirtyIn s.cfg (dirtyRect s)
  clean : isDirtyFlag s.fbFlags = true ∨ s.fbDirtySize = 0 ∧ s.fbCursor = 0

theorem inv_iff {s : State} : inv s = true ↔ Inv s := by
  simp only [inv, Bool.and_eq_true, Bool.or_eq_true, decide_eq_true_eq, beq_iff_eq, dirtyInBounds_iff]
  constructor
  · rintro ⟨⟨⟨⟨⟨⟨⟨⟨⟨⟨⟨hmem, hcfg⟩, harg⟩, hsrc⟩, hdst⟩, hctrl⟩, hst⟩, hlog⟩, hflags⟩, hcur⟩, hdirty⟩, hclean⟩
    exact ⟨hmem, hcfg, harg, hsrc, hdst, hctrl, hst, hlog, hflags, hcur, hdirty, hclean⟩
  · rintro ⟨hmem, hcfg, harg, hsrc, hdst, hctrl, hst, hlog, hflags, hcur, hdirty, hclean⟩
    exact ⟨⟨⟨⟨⟨⟨⟨⟨⟨⟨⟨hmem, hcfg⟩, harg⟩, hsrc⟩, hdst⟩, hctrl⟩, hst⟩, hlog⟩, hflags⟩, hcur⟩, hdirty⟩, hclean⟩

namespace Inv
variable {s : State} (h : Inv s)
include h

theorem setMem {m : Memory} (hm : memWf m = true) : Inv (setMem s m) := { h with memory := hm }

theorem endOk : Inv (endOk s) := { h with status := statusLegal_withCode .ok h.status }

theorem raiseError (c : ResultCode) : Inv (raiseError c s) :=
  { h with status := statusLegal_withCode c h.status, errlog := errlog_or_logBit c h.errlog }

theorem raiseFatal (c : FatalCause) : Inv (raiseFatal c s) := { h with status := statusLegal_withFatal c h.status }

/-- The result registers are free (10_state R26). -/
theorem results (r0 r1 r2 : Word) : Inv { s with res0 := r0, res1 := r1, res2 := r2 } := { h with }

theorem blitEnd {t : State} (ht : BlitEnd s t) : Inv t := by
  cases ht with
  | halted => exact h
  | ok hm => exact (h.setMem (hm h.memory)).endOk
  | fatal c hm => exact (h.setMem (hm h.memory)).raiseFatal c
  | error _ => exact h.raiseError _

end Inv

/-! ### The dirty rectangle (47_framebuffer R284, R286, R287) -/

theorem rectOf_packFields {r : Rect} (hx : fitsField r.x) (hy : fitsField r.y) (hw : fitsField r.w)
    (hh : fitsField r.h) : rectOf (packFields r.x r.y) (packFields r.w r.h) = r := by
  rw [rectOf, lowField_packFields hx, highField_packFields hy, lowField_packFields hw, highField_packFields hh]

/-- The framebuffer's own bounds may be dirty (47_framebuffer R284). -/
theorem dirtyIn_fbBounds (c : Cfg) : DirtyIn c (fbBounds c) where
  x := le_rfl
  y := le_rfl
  w := Int.natCast_nonneg _
  h := Int.natCast_nonneg _
  right := .inr (by simp [maxX, fbBounds])
  bottom := .inr (by simp [maxY, fbBounds])

/-- A rectangle clipped to the framebuffer's bounds may be dirty (47_framebuffer R286, R287). -/
theorem dirtyIn_clipRect (c : Cfg) (r : Rect) : DirtyIn c (clipRect r (fbBounds c)) := by
  constructor <;> simp only [clipRect, fbBounds, maxX, maxY] <;> omega

/-- A size register at 0 makes the dirty rectangle empty (47_framebuffer R287). -/
theorem dirtyIn_size_zero (c : Cfg) {org : Word} (hx : 0 ≤ lowField org) (hy : 0 ≤ highField org) :
    DirtyIn c (rectOf org 0) := by
  have hw : lowField 0 = 0 := by decide
  have hh : highField 0 = 0 := by decide
  exact ⟨hx, hy, hw.ge, hh.ge, .inl hw, .inl hh⟩

theorem isDirtyFlag_one : isDirtyFlag 1 = true := by decide

/-- The registers hold a rectangle in bounds whose origin is a 16-bit one. -/
theorem dirtyRect_setDirty {s : State} {r : Rect} (hc : cfgWf s.cfg = true) (hr : DirtyIn s.cfg r)
    (hx : r.x ≤ 32767) (hy : r.y ≤ 32767) : dirtyRect (setDirty s r) = r := by
  obtain ⟨⟨_, hcols⟩, _, hrows⟩ := cfgWf_size hc
  obtain ⟨x0, y0, w0, h0, hright, hbottom⟩ := hr
  unfold maxX at hright
  unfold maxY at hbottom
  refine rectOf_packFields ⟨?_, ?_⟩ ⟨?_, ?_⟩ ⟨?_, ?_⟩ ⟨?_, ?_⟩ <;> omega

theorem Inv.setDirty {s : State} (h : Inv s) {r : Rect} (hr : DirtyIn s.cfg r) (hx : r.x ≤ 32767)
    (hy : r.y ≤ 32767) : Inv (setDirty s r) :=
  { h with
    flags := le_rfl
    dirty := by rw [dirtyRect_setDirty h.config hr hx hy]; exact hr
    clean := .inl isDirtyFlag_one }

/-- The marked rectangle's origin is the origin of a rectangle of 16-bit fields or 0 (47_framebuffer R286). -/
theorem markedRect_origin (s : State) (org size : Word) :
    (markedRect s (rectOf org size)).x ≤ 32767 ∧ (markedRect s (rectOf org size)).y ≤ 32767 := by
  have hx := fitsField_lowField org
  have hy := fitsField_highField org
  unfold fitsField at hx hy
  unfold markedRect
  split <;> simp only [clipRect, unionRect, fbBounds, rectOf] <;> omega

/-! ### The commands other than BLIT keep the invariant -/

/-- What a command means keeps the invariant. -/
def KeepsInv (f : State → Answer) : Prop := ∀ s t, Inv s → f s = .next t → Inv t

theorem keepsInv_whenAccepting {f : State → Answer} (hf : KeepsInv f) : KeepsInv fun s => whenAccepting s f := by
  intro s t hs (h : whenAccepting s f = .next t)
  unfold whenAccepting at h
  split at h
  · cases h; exact hs
  · exact hf s t hs h

/-- A command that always answers. -/
theorem keepsInv_next {f : State → State} (hf : ∀ s, Inv s → Inv (f s)) : KeepsInv fun s => .next (f s) := by
  intro s t hs h; cases h; exact hf s hs

theorem keepsInv_execIsNoop : KeepsInv execIsNoop :=
  keepsInv_whenAccepting <| keepsInv_next fun s hs => (hs.results _ s.res1 s.res2).endOk

theorem keepsInv_execFbClear : KeepsInv execFbClear :=
  keepsInv_whenAccepting <| keepsInv_next fun s hs =>
    have origin_le : (0 : Int) ≤ 32767 := by decide
    ((hs.setMem (memWf_fillBytes hs.memory)).setDirty (dirtyIn_fbBounds s.cfg) origin_le origin_le).endOk

theorem keepsInv_execFbMarkDirty : KeepsInv execFbMarkDirty :=
  keepsInv_whenAccepting <| keepsInv_next fun s hs =>
    have horigin := markedRect_origin s s.rectOrg s.rectSize
    (hs.setDirty (dirtyIn_clipRect s.cfg _) horigin.1 horigin.2).endOk

theorem keepsInv_execFbGetRow : KeepsInv execFbGetRow := by
  refine keepsInv_whenAccepting (keepsInv_next fun s hs => ?_)
  split
  · exact hs.raiseFatal _
  · exact (hs.results _ _ s.res2).endOk

theorem keepsInv_execFbSizeBytes : KeepsInv execFbSizeBytes :=
  keepsInv_whenAccepting <| keepsInv_next fun s hs => (hs.results _ s.res1 s.res2).endOk

theorem keepsInv_execFbHasNextRow : KeepsInv execFbHasNextRow :=
  keepsInv_whenAccepting <| keepsInv_next fun s hs => (hs.results _ s.res1 s.res2).endOk

/-- Under the invariant the cursor's 16 bits are the whole register (10_state R44). -/
theorem Inv.cursorRow_eq {s : State} (h : Inv s) : cursorRow s = s.fbCursor.toNat := by
  obtain ⟨_, _, hrows⟩ := cfgWf_size h.config
  have := h.cursor
  rw [cursorRow, BitVec.extractLsb'_toNat, Nat.shiftRight_zero]
  exact Nat.mod_eq_of_lt (by omega)

/-- A row yielded from within the dirty rectangle leaves the cursor within the framebuffer (47_framebuffer R296). -/
theorem Inv.yieldRow {s : State} (h : Inv s) (hnext : hasNextRow s = true) (y a : Int) (len : Nat)
    (bytes : List Byte) : Inv (yieldRow s y a len bytes) := by
  simp only [hasNextRow, Bool.and_eq_true, decide_eq_true_eq] at hnext
  obtain ⟨hflag, hcur⟩ := hnext
  obtain ⟨_, _, hrows⟩ := cfgWf_size h.config
  have hlow := h.cursorRow_eq
  have hbottom := h.dirty.bottom
  have hy := h.dirty.y
  unfold maxY at hbottom
  have hcursor : (BitVec.ofNat 32 ((cursorRow s + 1) % 65536)).toNat ≤ s.cfg.fbRows := by
    rw [BitVec.toNat_ofNat]; omega
  exact { h with cursor := hcursor, clean := .inl hflag }

theorem keepsInv_execFbNextRow : KeepsInv execFbNextRow := by
  refine keepsInv_whenAccepting fun s t hs h => ?_
  dsimp only at h
  split at h
  · rename_i hnext
    split at h
    · cases h
    · split at h
      · rename_i x _; cases x <;> cases h
      · cases h; exact (hs.yieldRow hnext _ _ _ _).endOk
  · cases h; exact hs.raiseError .noRow

/-- The size registers at 0 leave an empty rectangle with its origin (47_framebuffer R297, R299). -/
theorem keepsInv_execFbResetDirty : KeepsInv execFbResetDirty :=
  keepsInv_whenAccepting <| keepsInv_next fun s hs =>
    Inv.endOk { hs with
      flags := Nat.zero_le _
      cursor := Nat.zero_le _
      dirty := dirtyIn_size_zero s.cfg hs.dirty.x hs.dirty.y
      clean := .inr ⟨rfl, rfl⟩ }

/-- Every instruction keeps the invariant. -/
theorem keepsInv_exec (i : Instr) : KeepsInv (exec i) := by
  by_cases hi : i ∈ otherCommands
  · simp only [otherCommands, List.mem_cons, List.not_mem_nil, or_false] at hi
    rcases hi with rfl | rfl | rfl | rfl | rfl | rfl | rfl | rfl
    · exact keepsInv_execIsNoop
    · exact keepsInv_execFbClear
    · exact keepsInv_execFbMarkDirty
    · exact keepsInv_execFbGetRow
    · exact keepsInv_execFbSizeBytes
    · exact keepsInv_execFbHasNextRow
    · exact keepsInv_execFbNextRow
    · exact keepsInv_execFbResetDirty
  · exact fun s t hs h => hs.blitEnd (exec_ends hi s t h)

/-! ### The host's operations keep the invariant (20_memory R70) -/

theorem keepsInv_runPacket (p : Packet) : KeepsInv (runPacket p) := by
  intro s t hs h
  unfold runPacket at h
  split at h
  · exact keepsInv_exec _ s t hs h
  · exact keepsInv_whenAccepting (keepsInv_next fun s hs => hs.raiseError .illegalCmd) s t hs h
  · cases h
  · cases h

theorem keepsInv_regWrite (off : Nat) (w : Word) : KeepsInv (regWrite off w) := by
  intro s t hs h
  unfold regWrite at h
  split at h
  case h_1 => exact keepsInv_runPacket _ s t hs h
  case h_2 => cases h; exact { hs with errlog := and_right_zero _ hs.errlog }
  case h_3 => cases h; exact { hs with arg0 := and_disjoint_masks w (by decide) }
  case h_5 => cases h; exact { hs with srcFmt := and_disjoint_masks w (by decide) }
  case h_10 => cases h; exact { hs with dstFmt := and_disjoint_masks w (by decide) }
  case h_16 => cases h; exact { hs with ctrl := and_disjoint_masks w (by decide) }
  all_goals cases h; exact { hs with }

theorem keepsInv_hostMemWrite (a : Word) (v : Byte) : KeepsInv (hostMemWrite a v) := by
  intro s t hs h
  unfold hostMemWrite at h
  split at h
  · rename_i x _; cases x <;> cases h
  · rename_i m hm; cases h; exact hs.setMem (memWf_writeByte hm hs.memory)

theorem keepsInv_hostMemRead (a : Word) : KeepsInv (hostMemRead a) := by
  intro s t hs h
  unfold hostMemRead at h
  split at h
  · rename_i x _; cases x <;> cases h
  · cases h; exact { hs with }

/-- The reset event gives every register its reset value and keeps the configuration (70_reset R340, R341). -/
theorem Inv.resetEvent {s : State} (h : Inv s) : Inv (resetEvent s) where
  memory := memWf_nil
  config := h.config
  arg0 := BitVec.zero_and
  srcFmt := BitVec.zero_and
  dstFmt := BitVec.zero_and
  ctrl := BitVec.zero_and
  status := statusLegal_zero
  errlog := BitVec.zero_and
  flags := Nat.zero_le _
  cursor := Nat.zero_le _
  dirty := dirtyIn_size_zero (org := 0) s.cfg (by decide) (by decide)
  clean := .inr ⟨rfl, rfl⟩

theorem keepsInv_perform (op : HostOp) : KeepsInv (perform op) := by
  cases op with
  | regWrite off w => exact keepsInv_regWrite off w
  | regRead off => exact keepsInv_next fun s hs => { hs with }
  | memWrite a v => exact keepsInv_hostMemWrite a v
  | memRead a => exact keepsInv_hostMemRead a
  | routineCall k => exact keepsInv_runPacket (.key k)
  | reset => exact keepsInv_next fun s hs => hs.resetEvent

theorem keepsInv_step : KeepsInv step := by
  intro s t hs h
  unfold step at h
  split at h
  · cases h; exact hs
  · rename_i op rest _
    have hrest : Inv { s with inbox := rest } := { hs with }
    exact keepsInv_perform op _ t hrest h

/-- Settles O11: every host operation keeps the invariant. -/
theorem stepKeepsInvariant : Obligations.StepKeepsInvariant := by
  intro s t hs h
  exact inv_iff.2 (keepsInv_step s t (inv_iff.1 hs) h)

end Sys2Proof.Machine
end

section
/-! PROOFS. One access to PIXMEM: what a read depends on, the fault of an unbacked byte, and the bits a written word
changes (20_memory R60 to R63, R69). -/

namespace Sys2Proof.Machine

/-! ### A read depends on its own bytes alone (20_memory R69) -/

section
variable {e : PixEnv} {m m' : Memory}

theorem readByte_congr {x : Int} (h : peek e.epoch m' (pixAddr x) = peek e.epoch m (pixAddr x)) :
    readByte e m' x = readByte e m x := by
  simp only [readByte, h]

theorem readWord_congr {x : Int} (h : ∀ b ∈ wordBytes x, peek e.epoch m' b = peek e.epoch m b) :
    readWord e m' x = readWord e m x := by
  simp only [wordBytes, List.forall_mem_cons] at h
  obtain ⟨h0, h1, h2, h3, _⟩ := h
  simp only [readWord, readByte_congr h0, readByte_congr h1, readByte_congr h2, readByte_congr h3]

/-! ### The fault of an unbacked byte (93 U11) -/

theorem readByte_of_unbacked {x : Int} (h : isBacked e.backed (pixAddr x) = false) :
    readByte e m x = .error (.fault (.notBacked (pixAddr x))) := by
  simp [readByte, h]

theorem writeByte_of_unbacked {x : Int} (v : Byte) (h : isBacked e.backed (pixAddr x) = false) :
    writeByte e m x v = .error (.fault (.notBacked (pixAddr x))) := by
  simp [writeByte, h]

end

theorem firstUnbacked_cons {s : State} {c b : Nat} {bs : List Nat} (h : firstUnbacked s (c :: bs) = some b) :
    (isBacked s.cfg.backed c = false ∧ b = c)
      ∨ (isBacked s.cfg.backed c = true ∧ firstUnbacked s bs = some b) := by
  unfold firstUnbacked at h ⊢
  cases hc : isBacked s.cfg.backed c with
  | false => simp only [List.find?_cons, hc, Bool.not_false, Option.some.injEq] at h; exact .inl ⟨rfl, h.symm⟩
  | true => simp only [List.find?_cons, hc, Bool.not_true] at h; exact .inr ⟨rfl, h⟩

theorem firstUnbacked_singleton {s : State} {c b : Nat} (h : firstUnbacked s [c] = some b) :
    isBacked s.cfg.backed c = false ∧ b = c := by
  obtain h | ⟨_, h⟩ := firstUnbacked_cons h
  · exact h
  · cases h

/-- A word is read byte by byte from its lowest address up, so its first unbacked byte is the one that faults
(20_memory R62, R71). -/
theorem readWord_of_unbacked {s : State} {m : Memory} {x : Int} {b : Nat}
    (h : firstUnbacked s (wordBytes x) = some b) : readWord (pixEnv s) m x = .error (.fault (.notBacked b)) := by
  have hok {y : Int} (hy : isBacked s.cfg.backed (pixAddr y) = true) :
      readByte (pixEnv s) m y = .ok (peek s.epoch m (pixAddr y)) := readByte_of_backed hy
  have hno {y : Int} (hy : isBacked s.cfg.backed (pixAddr y) = false) :
      readByte (pixEnv s) m y = .error (.fault (.notBacked (pixAddr y))) := readByte_of_unbacked hy
  unfold readWord
  obtain ⟨h0, rfl⟩ | ⟨h0, h⟩ := firstUnbacked_cons h
  · simp only [hno h0, bind, Except.bind]
  obtain ⟨h1, rfl⟩ | ⟨h1, h⟩ := firstUnbacked_cons h
  · simp only [hok h0, hno h1, bind, Except.bind]
  obtain ⟨h2, rfl⟩ | ⟨h2, h⟩ := firstUnbacked_cons h
  · simp only [hok h0, hok h1, hno h2, bind, Except.bind]
  obtain ⟨h3, rfl⟩ := firstUnbacked_singleton h
  simp only [hok h0, hok h1, hok h2, hno h3, bind, Except.bind]

/-! ### PIXMEM bit by bit (20_memory R63) -/

/-- Bit `k` of the byte at address `b`. -/
def bitAt (ep : Nat) (m : Memory) (b k : Nat) : Bool := (peek ep m b).getLsbD k

theorem peek_eq_of_bitAt_eq {ep : Nat} {m m' : Memory} {b : Nat}
    (h : ∀ k, k < 8 → bitAt ep m' b k = bitAt ep m b k) : peek ep m' b = peek ep m b :=
  BitVec.eq_of_getLsbD_eq h

theorem bitAt_memSet (ep : Nat) (m : Memory) (x b k : Nat) (v : Byte) :
    bitAt ep (memSet m x v) b k = if b = x then v.getLsbD k else bitAt ep m b k := by
  unfold bitAt
  rw [peek_memSet]
  split <;> rfl

/-- A word that can be read is backed whole (20_memory R60). -/
theorem backed_of_readWord {e : PixEnv} {m : Memory} {x : Int} {w : Word} (h : readWord e m x = .ok w) {t : Nat}
    (ht : t < 4) : isBacked e.backed (pixAddr (x + t)) = true := by
  simp only [readWord, except_bind_eq_ok, readByte_eq_ok] at h
  obtain ⟨_, ⟨h0, _⟩, _, ⟨h1, _⟩, _, ⟨h2, _⟩, _, ⟨h3, _⟩, _⟩ := h
  rcases (by omega : t = 0 ∨ t = 1 ∨ t = 2 ∨ t = 3) with rfl | rfl | rfl | rfl
  · simpa using h0
  · exact h1
  · exact h2
  · exact h3

/-- A word that was read is written back: bit `8 * t + k` of a word is bit `k` of its byte `t`, and every other byte
is kept (20_memory R62). -/
theorem rewriteWord {e : PixEnv} {m : Memory} {x : Int} {d : Word} (hr : readWord e m x = .ok d) (w : Word) :
    ∃ m', writeWord e m x w = .ok m'
      ∧ (∀ t k, t < 4 → k < 8 → bitAt e.epoch m' (pixAddr (x + (t : Nat))) k = w.getLsbD (8 * t + k)
          ∧ bitAt e.epoch m (pixAddr (x + (t : Nat))) k = d.getLsbD (8 * t + k))
      ∧ ∀ b, (∀ t : Nat, t < 4 → b ≠ pixAddr (x + t)) → peek e.epoch m' b = peek e.epoch m b := by
  have hbk : ∀ t : Nat, t < 4 → isBacked e.backed (pixAddr (x + t)) = true := fun t ht => backed_of_readWord hr ht
  obtain ⟨d', hd', hbits⟩ := readWord_of_backed (m := m) hbk
  obtain ⟨m', hw, hin, hout⟩ := writeWord_of_backed (m := m) w hbk
  obtain rfl : d' = d := by rw [hr] at hd'; cases hd'; rfl
  refine ⟨m', hw, fun t k ht hk => ⟨?_, (hbits t k ht hk).symm⟩, hout _⟩
  rw [bitAt, hin _ t ht]
  simp [hk]

/-! ### The host's accesses (20_memory R60, R70) -/

theorem pixAddr_toNat (x : Word) : pixAddr (x.toNat : Int) = x.toNat := pixAddr_natCast x.isLt

theorem hostMemWrite_of_backed {s : State} {x : Word} (v : Byte) (h : isBacked s.cfg.backed x.toNat = true) :
    hostMemWrite x v s = .next (setMem s (memSet s.mem x.toNat v)) := by
  have hb : isBacked (pixEnv s).backed (pixAddr (x.toNat : Int)) = true := by rw [pixAddr_toNat]; exact h
  simp only [hostMemWrite, writeByte_of_backed v hb, pixAddr_toNat]

theorem hostMemRead_of_backed {s : State} {x : Word} (h : isBacked s.cfg.backed x.toNat = true) :
    hostMemRead x s = .next { s with readData := (peek s.epoch s.mem x.toNat).zeroExtend 32 } := by
  have hb : isBacked (pixEnv s).backed (pixAddr (x.toNat : Int)) = true := by rw [pixAddr_toNat]; exact h
  rw [hostMemRead, readByte_of_backed hb, pixAddr_toNat]; rfl

theorem hostMemWrite_of_unbacked {s : State} {x : Word} (v : Byte) (h : isBacked s.cfg.backed x.toNat = false) :
    hostMemWrite x v s = .fault (.notBacked x.toNat) := by
  have hb : isBacked (pixEnv s).backed (pixAddr (x.toNat : Int)) = false := by rw [pixAddr_toNat]; exact h
  simp only [hostMemWrite, writeByte_of_unbacked v hb, stopAnswer, pixAddr_toNat]

theorem hostMemRead_of_unbacked {s : State} {x : Word} (h : isBacked s.cfg.backed x.toNat = false) :
    hostMemRead x s = .fault (.notBacked x.toNat) := by
  have hb : isBacked (pixEnv s).backed (pixAddr (x.toNat : Int)) = false := by rw [pixAddr_toNat]; exact h
  simp only [hostMemRead, readByte_of_unbacked hb, stopAnswer, pixAddr_toNat]

/-- Settles O14: the host's write is one `memSet`, and `peek_memSet` says what every later read gives. -/
theorem hostReadsTheByteLastWritten : Obligations.HostReadsTheByteLastWritten := by
  intro s x v h
  have hread : peek s.epoch (memSet s.mem x.toNat v) x.toNat = v := by rw [peek_memSet, if_pos rfl]
  refine ⟨memSet s.mem x.toNat v, hostMemWrite_of_backed v h, hread, fun b hb => ?_, ?_⟩
  · rw [peek_memSet, if_neg hb]
  · have hback := hostMemRead_of_backed (s := { s with mem := memSet s.mem x.toNat v }) h
    rw [hread] at hback
    exact hback

end Sys2Proof.Machine
end

section
/-! PROOFS. Which loop a BLIT runs once its entry checks have passed (41_dispatch R160, R166, 60_exceptions R320). -/

namespace Sys2Proof.Machine

/-! ### The rows of a routine, by operator (30_encoding R105) -/

/-- A way of combining that writes one byte: `paint c d` of the source colour `c` and the byte's value `d`
(44_palette_to_color8 R222). -/
def CombinesTo (combine : Combine) (paint : Color → Color → Color) : Prop :=
  ∀ (e : PixEnv) (c : Color) (x : Int) (m : Memory),
    combine e c x m = writeByte e m x (paint c (peek e.epoch m (pixAddr x)))

theorem combinesTo_copy : CombinesTo combineCopy fun c _ => c := fun _ _ _ _ => rfl

/-- Blending reads the byte it writes, so both accesses meet the same fault. -/
theorem combinesTo_blend (lib : ColorLib) (f : Color → Color) :
    CombinesTo (combineBlend lib f) fun c d => lib.alphaBlend (f c) d := by
  intro e c x m
  cases h : isBacked e.backed (pixAddr x) with
  | true => exact combineBlend_paints lib f e c x m h
  | false => simp only [combineBlend, readByte_of_unbacked h, writeByte_of_unbacked _ h, bind, Except.bind]

/-- No operator that a BLIT's normalisation leaves for Mono1 lacks a form (42_mono1_to_mono1 R189). -/
theorem runM1m1_form {op : CompOp} (ht : op ≠ .tint) (hl : op ≠ .tintLuminance) :
    ∃ form g, formIs form g ∧ ∀ a s, runM1m1 a s op = m1m1 form a s := by
  cases op with
  | assign => exact ⟨_, _, m1m1AssignForm_is, fun _ _ => rfl⟩
  | assignInverted => exact ⟨_, _, m1m1AssignInvertedForm_is, fun _ _ => rfl⟩
  | or => exact ⟨_, _, m1m1OrForm_is, fun _ _ => rfl⟩
  | and => exact ⟨_, _, m1m1AndForm_is, fun _ _ => rfl⟩
  | clear => exact ⟨_, _, m1m1ClearForm_is, fun _ _ => rfl⟩
  | set => exact ⟨_, _, m1m1SetForm_is, fun _ _ => rfl⟩
  | tint => exact absurd rfl ht
  | tintLuminance => exact absurd rfl hl

/-- The two halves of the PALM1 table differ in the source format alone (43_palette_to_mono1 R200). -/
theorem runPalm1P2_eq (lib : ColorLib) (a : BlitArgs) (s : State) (op : CompOp) :
    runPalm1P2 lib a s op = runPalm1P1 lib a s op := by cases op <;> rfl

/-- The two halves of the PALC8 table differ in the source format alone (44_palette_to_color8 R220). -/
theorem runPalc8P24_eq (lib : ColorLib) (a : BlitArgs) (s : State) (op : CompOp) :
    runPalc8P24 lib a s op = runPalc8P1 lib a s op := by cases op <;> rfl

theorem runPalm1P1_permitted {op : CompOp} (h : permittedFromPalette op = true) (lib : ColorLib) (a : BlitArgs)
    (s : State) : ∃ recolor, runPalm1P1 lib a s op = palm1 lib recolor a s := by
  cases op with
  | assign | set | tint | tintLuminance => exact ⟨_, rfl⟩
  | assignInverted | or | and | clear => cases h

theorem runPalm1P1_rejected {op : CompOp} (h : permittedFromPalette op = false) (lib : ColorLib) (a : BlitArgs)
    (s : State) : runPalm1P1 lib a s op = palm1Rejected lib a s := by
  cases op with
  | assign | set | tint | tintLuminance => cases h
  | assignInverted | or | and | clear => rfl

theorem runPalc8P1_permitted {op : CompOp} (h : permittedFromPalette op = true) (lib : ColorLib) (a : BlitArgs)
    (s : State) : ∃ combine paint, CombinesTo combine paint ∧ runPalc8P1 lib a s op = palc8 combine a s := by
  cases op with
  | assign => exact ⟨_, _, combinesTo_copy, rfl⟩
  | set | tint | tintLuminance => exact ⟨_, _, combinesTo_blend lib _, rfl⟩
  | assignInverted | or | and | clear => cases h

theorem runPalc8P1_rejected {op : CompOp} (h : permittedFromPalette op = false) (lib : ColorLib) (a : BlitArgs)
    (s : State) : runPalc8P1 lib a s op = palc8Rejected a s := by
  cases op with
  | assign | set | tint | tintLuminance => cases h
  | assignInverted | or | and | clear => rfl

theorem runC8c8_combine (op : CompOp) (lib : ColorLib) (a : BlitArgs) (s : State) :
    ∃ combine paint, CombinesTo combine paint ∧ runC8c8 lib a s op = c8c8 combine a s := by
  cases op with
  | assign | assignInverted | or | and | clear => exact ⟨_, _, combinesTo_copy, rfl⟩
  | set | tint | tintLuminance => exact ⟨_, _, combinesTo_blend lib _, rfl⟩

/-- `Assign` and `AssignInverted` write a colour for either source bit (46_mono1_to_color8 R262). -/
theorem runM1c8_expand (op : CompOp) (a : BlitArgs) (s : State) :
    ∃ expand : Expand, (op = .assign ∨ op = .assignInverted → ∀ bit, ∃ c, expand bit = some c)
      ∧ runM1c8 a s op = m1c8 expand a s := by
  cases op with
  | assign | assignInverted => exact ⟨_, fun _ bit => by cases bit <;> exact ⟨_, rfl⟩, rfl⟩
  | or | and | clear | set | tint | tintLuminance => exact ⟨_, fun h => by simp at h, rfl⟩

/-! ### The loop a BLIT runs once its entry checks have passed (60_exceptions R320) -/

/-- The source and destination formats a routine is dispatched for (41_dispatch R166). -/
def Routine.takes (f d : PixelFormat) : Routine → Prop
  | .m1m1 => f = .mono1 ∧ d = .mono1
  | .palm1P1 | .palm1P2 => isPaletteFormat f = true ∧ d = .mono1
  | .palc8P1 | .palc8P24 => isPaletteFormat f = true ∧ d.isEightBit = true
  | .c8c8 => f.isEightBit = true ∧ d.isEightBit = true
  | .m1c8 => f = .mono1 ∧ d.isEightBit = true

theorem takes_of_dispatchPair {f d : PixelFormat} {r : Routine} (h : dispatchPair f d = some r) : r.takes f d := by
  unfold dispatchPair at h
  cases d <;> cases f <;> cases h <;> exact ⟨rfl, rfl⟩

theorem supportedPairs_contains (f d : PixelFormat) :
    supportedPairs.contains (f, d) = (dispatchPair f d).isSome := by
  cases d <;> cases f <;> rfl

/-- What one pixel of a routine with operator `op` does to PIXMEM: the five shapes a loop's body can have. -/
inductive LoopPixel (op : CompOp) (e : PixEnv) (a : BlitArgs) : (Px → Memory → Except Stop Memory) → Prop where
  | m1m1 {form : WordForm} {g : Bool → Bool → Bool} (hs : a.src.format = .mono1) (hd : a.dst.format = .mono1)
      (hg : formIs form g) : LoopPixel op e a (m1m1Pixel form e a)
  | palm1 (table : List DitherEntry) (hs : isPaletteFormat a.src.format = true) (hd : a.dst.format = .mono1) :
      LoopPixel op e a (palm1Pixel table e a)
  | palc8 {combine : Combine} {paint : Color → Color → Color} (hs : isPaletteFormat a.src.format = true)
      (hd : a.dst.format.isEightBit = true) (hc : CombinesTo combine paint) : LoopPixel op e a (palc8Pixel combine e a)
  | c8c8 {combine : Combine} {paint : Color → Color → Color} (hs : a.src.format.isEightBit = true)
      (hd : a.dst.format.isEightBit = true) (hc : CombinesTo combine paint) : LoopPixel op e a (c8c8Pixel combine e a)
  | m1c8 {expand : Expand} (hs : a.src.format = .mono1) (hd : a.dst.format.isEightBit = true)
      (hx : op = .assign ∨ op = .assignInverted → ∀ bit, ∃ c, expand bit = some c) :
      LoopPixel op e a (m1c8Pixel expand e a)

theorem withPalette_of_present {a : BlitArgs} (h : a.src.palette ≠ 0) (s : State) (rest : State → Answer) :
    withPalette a s rest = rest s := if_neg h

theorem withAlignment_of_aligned {ok : Bool} (h : ok = true) (s : State) (rest : State → Answer) :
    withAlignment ok s rest = rest s := if_pos h

theorem withAlignment_of_misaligned {ok : Bool} (h : ok = false) (s : State) (rest : State → Answer) :
    withAlignment ok s rest = .next (endedHalt s s.mem 2) := by
  rw [withAlignment, h, if_neg (by simp), raiseFatal_eq]; rfl

/-- What the entry checks give, one by one (60_exceptions R320 steps d, e, f). -/
theorem entryPasses_iff {op : CompOp} {a : BlitArgs} : entryPasses op a = true ↔
    supportedPairs.contains (a.src.format, a.dst.format) = true
      ∧ (isPaletteFormat a.src.format = true → a.src.palette ≠ 0 ∧ permittedFromPalette op = true)
      ∧ (a.src.format = .mono1 → isAligned a.src = true) ∧ (a.dst.format = .mono1 → isAligned a.dst = true) := by
  unfold entryPasses
  cases isPaletteFormat a.src.format <;> simp [or_iff_not_imp_left, and_assoc]

/-- An 8-bit format is not Mono1. -/
theorem ne_mono1_of_isEightBit {f : PixelFormat} (h : f.isEightBit = true) : f ≠ .mono1 := by
  rintro rfl; cases h

theorem palette_ne_mono1 {f : PixelFormat} (h : isPaletteFormat f = true) : f ≠ .mono1 := by
  rintro rfl; cases h

/-- PALM1 with its palette and its alignment in order, where the palette can be read: the loop over its table
(43_palette_to_mono1 R200, R202). -/
theorem palm1_loop {lib : ColorLib} {recolor : Color → Color} {a : BlitArgs} {s : State}
    (hs : isPaletteFormat a.src.format = true) (hp : a.src.palette ≠ 0) (hal : isAligned a.dst = true)
    (hb : backedBytes s (paletteBytes a.src) = true) :
    ∃ table, palm1 lib recolor a s = runBlit (palm1Pixel table (pixEnv s) a) a s := by
  obtain ⟨table, htable, _⟩ := ditherTable_of_backed (lib := lib) (recolor := recolor) (i := 0) hs
    (fun _ hx => backed_of_backedBytes hb hx) (Nat.zero_add _).le
  refine ⟨table, ?_⟩
  rw [palm1, withPalette_of_present hp, withAlignment_of_aligned hal]
  simp only [htable]

/-- A BLIT whose checks before the loop pass runs a loop (60_exceptions R320). -/
theorem runRoutine_loop {lib : ColorLib} {op : CompOp} {a : BlitArgs} {s : State} (h : entryPasses op a = true)
    (ht : a.dst.format = .mono1 → op ≠ .tint ∧ op ≠ .tintLuminance)
    (hb : a.dst.format = .mono1 → backedBytes s (paletteBytes a.src) = true) :
    ∃ f, LoopPixel op (pixEnv s) a f ∧ runRoutine lib op a s = runBlit f a s := by
  obtain ⟨hpair, hpal, hsrc, hdst⟩ := entryPasses_iff.1 h
  have palm1_case (hf : isPaletteFormat a.src.format = true ∧ a.dst.format = .mono1) :
      ∃ f, LoopPixel op (pixEnv s) a f ∧ runPalm1P1 lib a s op = runBlit f a s := by
    obtain ⟨hs, hd⟩ := hf
    obtain ⟨hp, hperm⟩ := hpal hs
    obtain ⟨recolor, hrow⟩ := runPalm1P1_permitted hperm lib a s
    obtain ⟨table, hloop⟩ := palm1_loop (lib := lib) (recolor := recolor) hs hp (hdst hd) (hb hd)
    exact ⟨_, .palm1 table hs hd, hrow.trans hloop⟩
  have palc8_case (hf : isPaletteFormat a.src.format = true ∧ a.dst.format.isEightBit = true) :
      ∃ f, LoopPixel op (pixEnv s) a f ∧ runPalc8P1 lib a s op = runBlit f a s := by
    obtain ⟨hs, hd⟩ := hf
    obtain ⟨hp, hperm⟩ := hpal hs
    obtain ⟨combine, paint, hc, hrow⟩ := runPalc8P1_permitted hperm lib a s
    exact ⟨_, .palc8 hs hd hc, hrow.trans (withPalette_of_present hp s _)⟩
  unfold runRoutine
  split
  · rename_i hr; rw [supportedPairs_contains, hr] at hpair; cases hpair
  · rename_i hr
    obtain ⟨hs, hd⟩ := takes_of_dispatchPair hr
    obtain ⟨form, g, hg, hrow⟩ := runM1m1_form (ht hd).1 (ht hd).2
    have hal : (isAligned a.src && isAligned a.dst) = true := by rw [hsrc hs, hdst hd]; rfl
    exact ⟨_, .m1m1 hs hd hg, (hrow a s).trans (withAlignment_of_aligned hal s _)⟩
  · rename_i hr; exact palm1_case (takes_of_dispatchPair hr)
  · rename_i hr; rw [runPalm1P2_eq]; exact palm1_case (takes_of_dispatchPair hr)
  · rename_i hr; exact palc8_case (takes_of_dispatchPair hr)
  · rename_i hr; rw [runPalc8P24_eq]; exact palc8_case (takes_of_dispatchPair hr)
  · rename_i hr
    obtain ⟨hs, hd⟩ := takes_of_dispatchPair hr
    obtain ⟨combine, paint, hc, hrow⟩ := runC8c8_combine op lib a s
    exact ⟨_, .c8c8 hs hd hc, hrow⟩
  · rename_i hr
    obtain ⟨hs, hd⟩ := takes_of_dispatchPair hr
    obtain ⟨expand, hx, hrow⟩ := runM1c8_expand op a s
    exact ⟨_, .m1c8 hs hd hx, hrow.trans (withAlignment_of_aligned (hsrc hs) s _)⟩

/-! ### A BLIT as the routine of its normalised key (41_dispatch R160) -/

/-- The normalisation leaves no tint operator for Mono1 (41_dispatch R164, 42_mono1_to_mono1 R189). -/
theorem not_tint_of_normalise {lib : ColorLib} {op op' : CompOp} {t t' : Color}
    (h : normalise lib .mono1 op t = some (op', t')) : op' ≠ .tint ∧ op' ≠ .tintLuminance := by
  simp only [normalise, true_and] at h
  split at h
  · split at h
    · cases h; simp
    · split at h <;> cases h; simp
  · rename_i hop; cases h; exact not_or.1 hop

/-- The two commands and the operands each of them runs with (41_dispatch R161, R168). -/
theorem exec_blit_eq {s : State} {i : Instr} {a : BlitArgs}
    (hi : (i = .blit ∧ a = blitArgs s) ∨ (i = .blitAt ∧ a = blitAtArgs s)) :
    exec i s = whenAccepting s fun s => blitTiled engineLib (opField s.ctrl) a s := by
  obtain ⟨rfl, rfl⟩ | ⟨rfl, rfl⟩ := hi
  · rw [exec, execBlit, whenAccepting, whenAccepting]
  · rw [exec, execBlitAt, whenAccepting, whenAccepting]

theorem tint_of_blitArgs {s : State} {i : Instr} {a : BlitArgs}
    (hi : (i = .blit ∧ a = blitArgs s) ∨ (i = .blitAt ∧ a = blitAtArgs s)) : a.tint = tintField s.ctrl := by
  obtain ⟨_, rfl⟩ | ⟨_, rfl⟩ := hi <;> rfl

/-- The geometry of a BLIT does not depend on its tint. -/
@[simp] theorem visited_tint (s : State) (a : BlitArgs) (t : Color) : visited s { a with tint := t } = visited s a := by
  have hrows (rows : List Int) : planRows s.cfg.rowtab { a with tint := t } rows = planRows s.cfg.rowtab a rows := by
    induction rows with
    | nil => rfl
    | cons dy rest ih =>
      have hrow : rowPixels s.cfg.rowtab { a with tint := t } dy = rowPixels s.cfg.rowtab a dy := rfl
      simp only [planRows, hrow, ih]
  unfold visited blitPlan rowLoop
  rw [hrows]

/-- A BLIT past the no-op path and the normalisation is its routine, which has a row for the operator. -/
theorem exec_blit_eq_runRoutine {s : State} {i : Instr} {a : BlitArgs} {op : CompOp} {t : Color}
    (hacc : accepting s = true)
    (hi : (i = .blit ∧ a = blitArgs s) ∨ (i = .blitAt ∧ a = blitAtArgs s))
    (hnoop : isNoopTint (opField s.ctrl) (tintField s.ctrl) = false)
    (hnorm : normalise engineLib a.dst.format (opField s.ctrl) (tintField s.ctrl) = some (op, t)) :
    exec i s = runRoutine engineLib op { a with tint := t } s
      ∧ (a.dst.format = .mono1 → op ≠ .tint ∧ op ≠ .tintLuminance) := by
  refine ⟨?_, fun hd => not_tint_of_normalise (hd ▸ hnorm)⟩
  have htint := tint_of_blitArgs hi
  rw [exec_blit_eq hi, whenAccepting_of_accepting hacc, blitTiled, htint]
  simp only [hnoop, hnorm, Bool.false_eq_true, if_false]

end Sys2Proof.Machine
end

section
/-! PROOFS. How a BLIT stops at its entry, on an overlap, and at an unbacked byte of its first pixel (20_memory R60,
R68, R71, R72, 93 U5, U11). -/

namespace Sys2Proof.Machine

/-! ### The entry assertion of a Mono1 bitmap (20_memory R68) -/

theorem isAligned_eq_false {b : Bitmap} (h : b.addr % 4 ≠ 0 ∨ b.stride % 4 ≠ 0) : isAligned b = false := by
  simpa [isAligned, or_iff_not_imp_left] using h

theorem m1m1_of_misaligned {form : WordForm} {a : BlitArgs} {s : State}
    (h : isAligned a.src = false ∨ isAligned a.dst = false) : m1m1 form a s = .next (endedHalt s s.mem 2) :=
  withAlignment_of_misaligned (Bool.and_eq_false_iff.2 h) s _

theorem palm1_of_misaligned {lib : ColorLib} {recolor : Color → Color} {a : BlitArgs} {s : State}
    (hp : a.src.palette ≠ 0) (h : isAligned a.dst = false) :
    palm1 lib recolor a s = .next (endedHalt s s.mem 2) :=
  (withPalette_of_present hp s _).trans (withAlignment_of_misaligned h s _)

theorem palm1Rejected_of_misaligned {lib : ColorLib} {a : BlitArgs} {s : State} (hp : a.src.palette ≠ 0)
    (h : isAligned a.dst = false) : palm1Rejected lib a s = .next (endedHalt s s.mem 2) :=
  (withPalette_of_present hp s _).trans (withAlignment_of_misaligned h s _)

theorem m1c8_of_misaligned {expand : Expand} {a : BlitArgs} {s : State} (h : isAligned a.src = false) :
    m1c8 expand a s = .next (endedHalt s s.mem 2) := withAlignment_of_misaligned h s _

/-- Settles O26, row by row from the entry assertion of each routine. -/
theorem misalignedMono1Halts : Obligations.MisalignedMono1Halts := by
  intro s d hacc badSrc badDst
  have hsrc (h : badSrc) : isAligned (srcBitmap s) = false := isAligned_eq_false h
  have hdst (h : badDst) : isAligned (dstBitmap s) = false := isAligned_eq_false h
  have hrun (f : State → Answer) : whenAccepting s f = f s := whenAccepting_of_accepting hacc f
  refine ⟨fun h i hi => ?_, fun h hpal i hi => ?_, fun h i hi => ?_⟩
  · have hbad : isAligned (srcBitmap s) = false ∨ isAligned (dstBitmap s) = false := h.imp hsrc hdst
    simp only [List.mem_cons, List.not_mem_nil, or_false] at hi
    rcases hi with rfl | rfl | rfl | rfl | rfl | rfl <;> rw [exec] <;> exact (hrun _).trans (m1m1_of_misaligned hbad)
  · have hbad := hdst h
    have hp : (srcBitmap s).palette ≠ 0 := by simpa [srcBitmap, BitVec.toNat_eq] using hpal
    have hpermitted (recolor : Color → Color) (f : PixelFormat) :
        palm1 engineLib recolor (rowArgs s .mono1 f) s = .next (endedHalt s s.mem 2) := palm1_of_misaligned hp hbad
    have hrejected (f : PixelFormat) : palm1Rejected engineLib (rowArgs s .mono1 f) s = .next (endedHalt s s.mem 2) :=
      palm1Rejected_of_misaligned hp hbad
    simp only [List.mem_cons, List.not_mem_nil, or_false] at hi
    rcases hi with rfl | rfl | rfl | rfl | rfl | rfl | rfl | rfl | rfl | rfl | rfl | rfl | rfl | rfl | rfl | rfl
    iterate 2 (rw [exec]; exact (hrun _).trans (hpermitted _ _))
    iterate 8 (rw [exec]; exact (hrun _).trans (hrejected _))
    iterate 6 (rw [exec]; exact (hrun _).trans (hpermitted _ _))
  · have hbad := hsrc h
    simp only [List.mem_cons, List.not_mem_nil, or_false] at hi
    rcases hi with rfl | rfl | rfl | rfl | rfl | rfl | rfl | rfl <;> rw [exec] <;>
      exact (hrun _).trans (m1c8_of_misaligned hbad)

/-! ### The refusal of an overlap (20_memory R72, 93 U5) -/

theorem footprintsMeet_iff {a : BlitArgs} {px : List Px} : footprintsMeet a px = true ↔
    ∃ q ∈ px, ∃ b ∈ dstBytes a.dst q, b ∈ paletteBytes a.src ∨ ∃ p ∈ px, b ∈ srcBytes a.src p := by
  simp only [footprintsMeet, List.any_eq_true, Bool.or_eq_true, List.contains_eq_mem, decide_eq_true_eq]

theorem runBlit_of_meet {f : Px → Memory → Except Stop Memory} {a : BlitArgs} {s : State}
    (h : footprintsMeet a (visited s a) = true) : runBlit f a s = .refused .sourceMeetsDestination := if_pos h

/-- Settles O47: past its entry checks a BLIT is a loop, which judges the overlap first. -/
theorem overlapIsRefused : Obligations.OverlapIsRefused := by
  intro s i a op t hacc hi hnoop hnorm hentry hpal hmeet
  obtain ⟨hexec, htint⟩ := exec_blit_eq_runRoutine hacc hi hnoop hnorm
  obtain ⟨f, _, hloop⟩ := runRoutine_loop (lib := engineLib) (a := { a with tint := t }) hentry htint fun _ => hpal
  rw [hexec, hloop]
  refine runBlit_of_meet (footprintsMeet_iff.2 ?_)
  rw [visited_tint]
  exact hmeet

/-! ### The fault of an unbacked byte (20_memory R60, R71, 93 U11) -/

theorem srcBytes_mono1 {b : Bitmap} (h : b.format = .mono1) (p : Px) :
    srcBytes b p = wordBytes (monoWordAddr b (p.sx / 32) p.sy) := by simp [srcBytes, h]

theorem srcBytes_palette {b : Bitmap} (h : isPaletteFormat b.format = true) (p : Px) :
    srcBytes b p = [pixAddr (palByteAddr b p.sx p.sy)] := by
  rcases isPaletteFormat_cases h with hf | hf | hf <;> simp [srcBytes, hf]

theorem srcBytes_eightBit {b : Bitmap} (h : b.format.isEightBit = true) (p : Px) :
    srcBytes b p = [pixAddr (p.srcPtr + p.sx)] := by
  revert h; cases hf : b.format <;> simp [PixelFormat.isEightBit, srcBytes, hf]

theorem dstBytes_mono1 {b : Bitmap} (h : b.format = .mono1) (p : Px) : dstBytes b p = wordBytes (dstAddr b p) :=
  if_pos h

theorem dstBytes_eightBit {b : Bitmap} (h : b.format.isEightBit = true) (p : Px) :
    dstBytes b p = [pixAddr (dstAddr b p)] := if_neg (ne_mono1_of_isEightBit h)

/-- A source word whose bytes are backed is read. -/
theorem readWord_of_backedBytes {s : State} {m : Memory} {x : Int} (h : backedBytes s (wordBytes x) = true) :
    ∃ w, readWord (pixEnv s) m x = .ok w := by
  obtain ⟨w, hw, _⟩ := readWord_of_backed (e := pixEnv s) (m := m) (a := x)
    fun _ ht => backed_of_backedBytes h (wordBytes_mem ht)
  exact ⟨w, hw⟩

theorem palIndex_of_unbacked {s : State} {m : Memory} {b : Bitmap} {x y : Int}
    (h : isBacked s.cfg.backed (pixAddr (palByteAddr b x y)) = false) :
    palIndex (pixEnv s) m b x y = .error (.fault (.notBacked (pixAddr (palByteAddr b x y)))) := by
  have hread : readByte (pixEnv s) m (palByteAddr b x y) = _ := readByte_of_unbacked h
  simp only [palIndex, hread, bind, Except.bind]

section
variable {op : CompOp} {s : State} {a : BlitArgs} {f : Px → Memory → Except Stop Memory} {p : Px} {b : Nat}

/-- Every routine reads a pixel's source first (20_memory R71). -/
theorem LoopPixel.source_fault (h : LoopPixel op (pixEnv s) a f)
    (hb : firstUnbacked s (srcBytes a.src p) = some b) (m : Memory) : f p m = .error (.fault (.notBacked b)) := by
  cases h with
  | m1m1 hs hd hg =>
    rw [srcBytes_mono1 hs] at hb
    simp only [m1m1Pixel, readWord_of_unbacked hb, bind, Except.bind]
  | palm1 table hs hd =>
    rw [srcBytes_palette hs] at hb
    obtain ⟨hno, rfl⟩ := firstUnbacked_singleton hb
    simp only [palm1Pixel, palIndex_of_unbacked hno, bind, Except.bind]
  | palc8 hs hd hc =>
    rw [srcBytes_palette hs] at hb
    obtain ⟨hno, rfl⟩ := firstUnbacked_singleton hb
    simp only [palc8Pixel, palIndex_of_unbacked hno, bind, Except.bind]
  | c8c8 hs hd hc =>
    rw [srcBytes_eightBit hs] at hb
    obtain ⟨hno, rfl⟩ := firstUnbacked_singleton hb
    have hread : readByte (pixEnv s) m (p.srcPtr + p.sx) = _ := readByte_of_unbacked hno
    simp only [c8c8Pixel, hread, bind, Except.bind]
  | m1c8 hs hd hx =>
    rw [srcBytes_mono1 hs] at hb
    simp only [m1c8Pixel, monoBit, readWord_of_unbacked hb, bind, Except.bind]

/-- PALC8 reads the palette entry that the pixel names, after the pixel's index (44_palette_to_color8 R221). -/
theorem LoopPixel.entry_fault (h : LoopPixel op (pixEnv s) a f) (hs : isPaletteFormat a.src.format = true)
    (hd : a.dst.format ≠ .mono1) (hsrc : backedBytes s (srcBytes a.src p) = true)
    (hb : isBacked s.cfg.backed (pixAddr (a.src.palette + indexPixel s a.src p.sx p.sy)) = false) :
    f p s.mem = .error (.fault (.notBacked (pixAddr (a.src.palette + indexPixel s a.src p.sx p.sy)))) := by
  cases h with
  | m1m1 hs' _ _ => exact absurd hs' (palette_ne_mono1 hs)
  | palm1 _ _ hd' => exact absurd hd' hd
  | palc8 hs' hd' hc =>
    have hindex := palIndex_source (m := s.mem) hs (fun _ => backed_of_backedBytes hsrc) fun _ _ => rfl
    have hcolor : palColor (pixEnv s) s.mem a.src (indexPixel s a.src p.sx p.sy) = _ := readByte_of_unbacked hb
    simp only [palc8Pixel, hindex, hcolor, bind, Except.bind]
  | c8c8 hs' _ _ => rcases isPaletteFormat_cases hs with hf | hf | hf <;> rw [hf] at hs' <;> cases hs'
  | m1c8 hs' _ _ => exact absurd hs' (palette_ne_mono1 hs)

/-- With source and palette in order, the destination is accessed next, by M1C8 with `Assign` and `AssignInverted`
whatever the source bit (20_memory R71, 46_mono1_to_color8 R262). -/
theorem LoopPixel.destination_fault (h : LoopPixel op (pixEnv s) a f)
    (hsrc : backedBytes s (srcBytes a.src p) = true) (hpal : backedBytes s (paletteBytes a.src) = true)
    (hop : a.src.format = .mono1 → a.dst.format ≠ .mono1 → op = .assign ∨ op = .assignInverted)
    (hb : firstUnbacked s (dstBytes a.dst p) = some b) : f p s.mem = .error (.fault (.notBacked b)) := by
  have hpalette (hs : isPaletteFormat a.src.format = true) :
      palIndex (pixEnv s) s.mem a.src p.sx p.sy = .ok (indexPixel s a.src p.sx p.sy)
        ∧ palColor (pixEnv s) s.mem a.src (indexPixel s a.src p.sx p.sy) = .ok (palettePixel s a.src p.sx p.sy) :=
    ⟨palIndex_source hs (fun _ => backed_of_backedBytes hsrc) fun _ _ => rfl,
      palColor_source hs (fun _ => backed_of_backedBytes hpal) (fun _ _ => rfl) (indexPixel_lt ..)⟩
  have hbyte (hd : a.dst.format.isEightBit = true) (c : Color) :
      writeByte (pixEnv s) s.mem (dstAddr a.dst p) c = .error (.fault (.notBacked b)) := by
    rw [dstBytes_eightBit hd] at hb
    obtain ⟨hno, rfl⟩ := firstUnbacked_singleton hb
    exact writeByte_of_unbacked c hno
  cases h with
  | m1m1 hs hd hg =>
    rw [srcBytes_mono1 hs] at hsrc
    rw [dstBytes_mono1 hd] at hb
    obtain ⟨w, hw⟩ := readWord_of_backedBytes (m := s.mem) hsrc
    simp only [m1m1Pixel, hw, readWord_of_unbacked hb, bind, Except.bind]
  | palm1 table hs hd =>
    rw [dstBytes_mono1 hd] at hb
    simp only [palm1Pixel, (hpalette hs).1, readWord_of_unbacked hb, bind, Except.bind]
  | palc8 hs hd hc =>
    obtain ⟨hindex, hcolor⟩ := hpalette hs
    simp only [palc8Pixel, hindex, hcolor, bind, Except.bind]
    rw [hc]
    exact hbyte hd _
  | c8c8 hs hd hc =>
    have hread : readByte (pixEnv s) s.mem (p.srcPtr + p.sx) = _ :=
      readByte_of_backed (backed_of_backedBytes hsrc (by rw [srcBytes_eightBit hs]; exact List.mem_singleton_self _))
    simp only [c8c8Pixel, hread, bind, Except.bind]
    rw [hc]
    exact hbyte hd _
  | m1c8 hs hd hx =>
    rw [srcBytes_mono1 hs] at hsrc
    obtain ⟨w, hw⟩ := readWord_of_backedBytes (m := s.mem) hsrc
    obtain ⟨c, hcolor⟩ := hx (hop hs (ne_mono1_of_isEightBit hd)) (w.getLsbD (p.sx % 32).toNat)
    simp only [m1c8Pixel, monoBit, hw, bind, Except.bind, pure, Except.pure, hcolor]
    exact hbyte hd c

end

/-- PALM1 reads its whole palette, from entry 0 up, before its loop (43_palette_to_mono1 R202). -/
theorem ditherTable_of_unbacked {lib : ColorLib} {recolor : Color → Color} {s : State} {m : Memory} {p : Bitmap}
    {b : Nat} (n i : Nat)
    (h : firstUnbacked s ((List.range' i n).map fun (k : Nat) => pixAddr (p.palette + k)) = some b) :
    ditherTable lib recolor (pixEnv s) m p i n = .error (.fault (.notBacked b)) := by
  induction n generalizing i with
  | zero => cases h
  | succ n ih =>
    rw [List.range'_succ, List.map_cons] at h
    obtain ⟨hno, rfl⟩ | ⟨hok, h⟩ := firstUnbacked_cons h
    · have hcolor : palColor (pixEnv s) m p i = _ := readByte_of_unbacked hno
      simp only [ditherTable, hcolor, bind, Except.bind]
    · have hcolor : palColor (pixEnv s) m p i = _ := readByte_of_backed hok
      simp only [ditherTable, hcolor, ih (i + 1) h, bind, Except.bind]

/-- A loop whose first pixel stops. -/
theorem runBlit_of_first_stop {f : Px → Memory → Except Stop Memory} {a : BlitArgs} {s : State} {p : Px}
    {rest : List Px} {x : Stop} (ha : footprintsMeet a (visited s a) = false) (hv : visited s a = p :: rest)
    (hx : f p s.mem = .error x) : runBlit f a s = stopAnswer x := by
  have hrun : runPixels f (visited s a) s.mem = .error x := by rw [hv, runPixels, hx]
  unfold visited at ha hrun
  simp only [runBlit, ha, hrun, Bool.false_eq_true, if_false]

theorem paletteBytes_mono1 {b : Bitmap} (h : b.format = .mono1) : paletteBytes b = [] := by simp [paletteBytes, h]

theorem paletteBytes_palette {b : Bitmap} (h : isPaletteFormat b.format = true) :
    paletteBytes b = (List.range' 0 (2 ^ bpp b.format)).map fun (k : Nat) => pixAddr (b.palette + k) := by
  rw [← List.range_eq_range']
  rcases isPaletteFormat_cases h with hf | hf | hf <;> simp only [paletteBytes, hf]

/-- The palette of a BLIT to Mono1 that is not backed whole stops PALM1 before its loop (43_palette_to_mono1 R202). -/
theorem runRoutine_palette_fault {lib : ColorLib} {op : CompOp} {a : BlitArgs} {s : State} {b : Nat}
    (h : entryPasses op a = true) (hd : a.dst.format = .mono1)
    (hb : firstUnbacked s (paletteBytes a.src) = some b) : runRoutine lib op a s = .fault (.notBacked b) := by
  obtain ⟨hpair, hpal, _, hdst⟩ := entryPasses_iff.1 h
  have palm1_case (hs : isPaletteFormat a.src.format = true) : runPalm1P1 lib a s op = .fault (.notBacked b) := by
    obtain ⟨hp, hperm⟩ := hpal hs
    obtain ⟨recolor, hrow⟩ := runPalm1P1_permitted hperm lib a s
    rw [paletteBytes_palette hs] at hb
    rw [hrow, palm1, withPalette_of_present hp, withAlignment_of_aligned (hdst hd)]
    simp only [ditherTable_of_unbacked _ _ hb, stopAnswer]
  have not_eightBit {P : Prop} (hf : P ∧ a.dst.format.isEightBit = true) : False :=
    ne_mono1_of_isEightBit hf.2 hd
  unfold runRoutine
  split
  · rename_i hr; rw [supportedPairs_contains, hr] at hpair; cases hpair
  · rename_i hr; rw [paletteBytes_mono1 (takes_of_dispatchPair hr).1] at hb; cases hb
  · rename_i hr; exact palm1_case (takes_of_dispatchPair hr).1
  · rename_i hr; rw [runPalm1P2_eq]; exact palm1_case (takes_of_dispatchPair hr).1
  · rename_i hr; exact (not_eightBit (takes_of_dispatchPair hr)).elim
  · rename_i hr; exact (not_eightBit (takes_of_dispatchPair hr)).elim
  · rename_i hr; exact (not_eightBit (takes_of_dispatchPair hr)).elim
  · rename_i hr; exact (not_eightBit (takes_of_dispatchPair hr)).elim

/-- Every row of C8C8 called by key is the routine with some way of combining (45_color8_to_color8 R244 to R251). -/
theorem exec_c8c8_rows {d f : PixelFormat} {i : Instr}
    (hi : i ∈ [.c8c8Assign d f, .c8c8AssignInverted d f, .c8c8Or d f, .c8c8And d f, .c8c8Clear d f, .c8c8Set d f,
      .c8c8Tint d f, .c8c8TintLuminance d f]) {s : State} (hacc : accepting s = true) :
    ∃ combine paint, CombinesTo combine paint ∧ exec i s = c8c8 combine (rowArgs s d f) s := by
  have hrun (g : State → Answer) : whenAccepting s g = g s := whenAccepting_of_accepting hacc g
  simp only [List.mem_cons, List.not_mem_nil, or_false] at hi
  rcases hi with rfl | rfl | rfl | rfl | rfl | rfl | rfl | rfl
  iterate 5 exact ⟨_, _, combinesTo_copy, by rw [exec]; exact hrun _⟩
  iterate 3 exact ⟨_, _, combinesTo_blend engineLib _, by rw [exec]; exact hrun _⟩

/-- Settles O49: each fault is the first access of its kind in the order of R71. -/
theorem unbackedAccessFaults : Obligations.UnbackedAccessFaults := by
  refine ⟨fun s i a op t b hacc hi hnoop hnorm hentry => ?_, fun s d f p rest hd hf hacc hapart hv hno i hi => ?_,
    fun s x v h => ⟨hostMemWrite_of_unbacked v h, hostMemRead_of_unbacked h⟩⟩
  · obtain ⟨hexec, htint⟩ := exec_blit_eq_runRoutine hacc hi hnoop hnorm
    refine ⟨fun hd hb => ?_, fun p rest hapart hv hpal => ?_⟩
    · rw [hexec]
      exact runRoutine_palette_fault (a := { a with tint := t }) hentry hd hb
    · obtain ⟨f, hf, hloop⟩ := runRoutine_loop (lib := engineLib) (a := { a with tint := t }) hentry htint hpal
      rw [← visited_tint s a t] at hapart hv
      have stops_at {x : Nat} (hx : f p s.mem = .error (.fault (.notBacked x))) :
          exec i s = .fault (.notBacked x) := by
        rw [hexec, hloop]
        exact runBlit_of_first_stop hapart hv hx
      refine ⟨fun hb => stops_at (hf.source_fault hb s.mem), fun hsrc hs hbeq hno => ?_,
        fun hsrc hp hop hb => stops_at (hf.destination_fault hsrc hp hop hb)⟩
      subst hbeq
      by_cases hd : a.dst.format = .mono1
      · have hyes := backed_of_backedBytes (hpal hd) (mem_paletteBytes hs (indexPixel_lt s a.src p.sx p.sy))
        rw [hno] at hyes; cases hyes
      · exact stops_at (hf.entry_fault hs hd hsrc hno)
  · have hp : p ∈ visited s (rowArgs s d f) := by rw [hv]; exact List.mem_cons_self ..
    obtain ⟨_, _, _, _, _, hptr, _⟩ := mem_visited hp (.inr hd)
    rw [← hptr hf] at hno ⊢
    obtain ⟨combine, paint, _, hrow⟩ := exec_c8c8_rows hi hacc
    have hread : readByte (pixEnv s) s.mem (p.srcPtr + p.sx) = _ := readByte_of_unbacked hno
    rw [hrow, c8c8, runBlit_of_first_stop hapart hv (x := .fault (.notBacked (pixAddr (p.srcPtr + p.sx))))]
    · rfl
    · simp only [c8c8Pixel, hread, bind, Except.bind]

end Sys2Proof.Machine
end

section
/-! PROOFS. What a BLIT and the other commands write: the bits of visited pixels, the framebuffer's own bytes, nothing
(20_memory R78). -/

namespace Sys2Proof.Machine

/-! ### The bits a pixel is written through (40_primitives R135, R138) -/

/-- The pixel's own bits: one bit of a Mono1 destination, a whole byte of an 8-bit one. -/
def ownsBit (dst : Bitmap) (p : Px) (b k : Nat) : Bool :=
  if dst.format = .mono1 then pixAddr (monoByte dst p.dx p.dy) == b && (p.dx % 8).toNat == k
  else pixAddr (dstAddr dst p) == b

theorem ownsBit_mono1 {dst : Bitmap} (h : dst.format = .mono1) {p : Px} {b k : Nat} :
    ownsBit dst p b k = true ↔ pixAddr (monoByte dst p.dx p.dy) = b ∧ (p.dx % 8).toNat = k := by
  simp [ownsBit, h]

theorem ownsBit_eightBit {dst : Bitmap} (h : dst.format.isEightBit = true) (p : Px) (b k : Nat) :
    ownsBit dst p b k = (pixAddr (dstAddr dst p) == b) := if_neg (ne_mono1_of_isEightBit h)

/-- A pixel's bits lie in its word or byte (20_memory R78). -/
theorem mem_dstBytes_of_ownsBit {dst : Bitmap} {p : Px} {b k : Nat} (h : ownsBit dst p b k = true) :
    b ∈ dstBytes dst p := by
  by_cases hd : dst.format = .mono1
  · obtain ⟨rfl, _⟩ := (ownsBit_mono1 hd).1 h
    obtain ⟨hplace, _, hlt, _⟩ := mono_place dst p.dx p.dy
    rw [dstBytes_mono1 hd, dstAddr, if_pos hd, ← hplace]
    exact wordBytes_mem hlt
  · rw [ownsBit, if_neg hd, beq_iff_eq] at h
    simp [dstBytes, hd, h]

/-- A byte write through an 8-bit pixel changes that pixel's bits alone. -/
theorem bitAt_writeByte {e : PixEnv} {dst : Bitmap} {p : Px} {m m' : Memory} {v : Byte}
    (hd : dst.format.isEightBit = true) (h : writeByte e m (dstAddr dst p) v = .ok m') (b k : Nat) :
    bitAt e.epoch m' b k = if ownsBit dst p b k then v.getLsbD k else bitAt e.epoch m b k := by
  obtain ⟨_, rfl⟩ := writeByte_eq_ok.1 h
  rw [bitAt_memSet, ownsBit_eightBit hd]
  exact if_congr (eq_comm.trans beq_iff_eq.symm) rfl rfl

/-- A word of a Mono1 destination read and written back with the pixel's bit painted changes that bit alone
(42_mono1_to_mono1 R181). -/
theorem bitAt_rewriteWord {e : PixEnv} {dst : Bitmap} {p : Px} {m : Memory} {d w : Word} (paint : Bool → Bool)
    (hd : dst.format = .mono1) (hr : readWord e m (dstAddr dst p) = .ok d)
    (hw : ∀ i, i < 32 → w.getLsbD i = if i = (p.dx % 32).toNat then paint (d.getLsbD i) else d.getLsbD i) :
    ∃ m', writeWord e m (dstAddr dst p) w = .ok m' ∧ ∀ b k, k < 8 → bitAt e.epoch m' b k
      = if ownsBit dst p b k then paint (bitAt e.epoch m b k) else bitAt e.epoch m b k := by
  obtain ⟨m', hwrite, hin, hout⟩ := rewriteWord hr w
  obtain ⟨hplace, hbit, hlt, _, hsum⟩ := mono_place dst p.dx p.dy
  have haddr : dstAddr dst p = monoWordAddr dst (p.dx / 32) p.dy := if_pos hd
  refine ⟨m', hwrite, fun b k hk => ?_⟩
  by_cases hb : ∃ t : Nat, t < 4 ∧ b = pixAddr (dstAddr dst p + t)
  · obtain ⟨t, ht, rfl⟩ := hb
    obtain ⟨hnew, hold⟩ := hin t k ht hk
    have hown : ownsBit dst p (pixAddr (dstAddr dst p + t)) k = true ↔ 8 * t + k = (p.dx % 32).toNat := by
      rw [ownsBit_mono1 hd, ← hplace, haddr]
      constructor
      · rintro ⟨hbyte, hk'⟩
        have := pixAddr_add_inj (by omega) (by omega) hbyte
        omega
      · intro h
        obtain rfl : t = (p.dx % 32).toNat / 8 := by omega
        exact ⟨rfl, by omega⟩
    rw [hnew, hw _ (by omega), ← hold]
    exact if_congr hown.symm rfl rfl
  · have hmiss : ∀ t : Nat, t < 4 → b ≠ pixAddr (dstAddr dst p + t) := fun t ht h => hb ⟨t, ht, h⟩
    have hown : ¬ ownsBit dst p b k = true := by
      rintro h
      obtain ⟨t, ht, rfl⟩ := mem_wordBytes.1 (dstBytes_mono1 hd p ▸ mem_dstBytes_of_ownsBit h)
      exact hmiss t ht rfl
    rw [if_neg hown, bitAt, hout b hmiss]
    rfl

/-- A word form under the mask of one bit changes that bit alone (42_mono1_to_mono1 R182). -/
theorem formIs_one_bit {form : WordForm} {g : Bool → Bool → Bool} (hg : formIs form g) (d v : Word) {j i : Nat}
    (hi : i < 32) :
    (form d v (maskBits 1 j)).getLsbD i = if i = j then g (d.getLsbD i) (v.getLsbD j) else d.getLsbD i := by
  rw [hg d v _ i hi, getLsbD_maskBits hi]
  by_cases h : i = j
  · subst h; simp
  · have hmask : (decide (j ≤ i) && decide (i < j + 1)) = false := by
      rw [← Bool.decide_and, decide_eq_false_iff_not]; omega
    rw [hmask, if_neg h, if_neg (by simp)]

/-- The masked assign of PALM1 leaves a transparent pixel and gives any other its pattern bit (43_palette_to_mono1
R204, R212). -/
theorem palm1_one_bit (t : DitherEntry) (dy : Int) (d : Word) {j i : Nat} (hi : i < 32) :
    ((d &&& ~~~(if t.transparent then 0 else maskBits 1 j))
        ||| (ditherPattern t dy &&& (if t.transparent then 0 else maskBits 1 j))).getLsbD i
      = if i = j then (if t.transparent then d.getLsbD i else (ditherPattern t dy).getLsbD j) else d.getLsbD i := by
  cases t.transparent with
  | true =>
    have hkeep : (d &&& ~~~(0 : Word)) ||| (ditherPattern t dy &&& 0) = d := by
      rw [BitVec.ofNat_eq_ofNat, BitVec.not_zero, BitVec.and_allOnes, BitVec.and_zero, BitVec.or_zero]
    simp only [if_true, hkeep, ite_self]
  | false => exact formIs_one_bit m1m1AssignForm_is d (ditherPattern t dy) hi

/-- One pixel of M1M1, once its two words are read (42_mono1_to_mono1 R181). -/
theorem m1m1Pixel_bits {form : WordForm} {g : Bool → Bool → Bool} {e : PixEnv} {a : BlitArgs} {p : Px} {m : Memory}
    {w d : Word} (hg : formIs form g) (hd : a.dst.format = .mono1)
    (hs : readWord e m (monoWordAddr a.src (p.sx / 32) p.sy) = .ok w) (hr : readWord e m (dstAddr a.dst p) = .ok d) :
    ∃ m', m1m1Pixel form e a p m = .ok m' ∧ ∀ b k, k < 8 → bitAt e.epoch m' b k
      = if ownsBit a.dst p b k
        then g (bitAt e.epoch m b k) ((rotl32 w (alignRotation p.dx p.sx)).getLsbD (p.dx % 32).toNat)
        else bitAt e.epoch m b k := by
  obtain ⟨m', hw, hbits⟩ := bitAt_rewriteWord
    (fun x => g x ((rotl32 w (alignRotation p.dx p.sx)).getLsbD (p.dx % 32).toNat)) hd hr
    fun i hi => formIs_one_bit hg d (rotl32 w (alignRotation p.dx p.sx)) hi
  exact ⟨m', by simp only [m1m1Pixel, hs, hr, hw, bind, Except.bind], hbits⟩

/-- One pixel of PALM1, once its index and its word are read (43_palette_to_mono1 R204, R212). -/
theorem palm1Pixel_bits {table : List DitherEntry} {e : PixEnv} {a : BlitArgs} {p : Px} {m : Memory} {i : Nat}
    {d : Word} (hd : a.dst.format = .mono1) (hs : palIndex e m a.src p.sx p.sy = .ok i)
    (hr : readWord e m (dstAddr a.dst p) = .ok d) :
    ∃ m', palm1Pixel table e a p m = .ok m' ∧ ∀ b k, k < 8 → bitAt e.epoch m' b k
      = if ownsBit a.dst p b k
        then (if (table.getD i default).transparent then bitAt e.epoch m b k
          else (ditherPattern (table.getD i default) p.dy).getLsbD (p.dx % 32).toNat)
        else bitAt e.epoch m b k := by
  obtain ⟨m', hw, hbits⟩ := bitAt_rewriteWord
    (fun x => if (table.getD i default).transparent then x
      else (ditherPattern (table.getD i default) p.dy).getLsbD (p.dx % 32).toNat) hd hr
    fun j hj => palm1_one_bit (table.getD i default) p.dy d hj
  exact ⟨m', by simp only [palm1Pixel, hs, hr, bind, Except.bind]; exact hw, hbits⟩

/-! ### A loop writes through its own pixels (20_memory R71, R78) -/

theorem LoopPixel.keeps_bit {op : CompOp} {e : PixEnv} {a : BlitArgs} {f : Px → Memory → Except Stop Memory} {p : Px}
    {m m' : Memory} (h : LoopPixel op e a f) (hrun : f p m = .ok m') {b k : Nat} (hk : k < 8)
    (hno : ownsBit a.dst p b k = false) : bitAt e.epoch m' b k = bitAt e.epoch m b k := by
  have byte_kept {v : Byte} (hd : a.dst.format.isEightBit = true) (hw : writeByte e m (dstAddr a.dst p) v = .ok m') :
      bitAt e.epoch m' b k = bitAt e.epoch m b k := by
    rw [bitAt_writeByte hd hw, hno]; rfl
  cases h with
  | m1m1 hs hd hg =>
    have hread := hrun
    simp only [m1m1Pixel, except_bind_eq_ok] at hread
    obtain ⟨w, hw, d, hr, _⟩ := hread
    obtain ⟨m1, hrun', hbits⟩ := m1m1Pixel_bits hg hd hw hr
    cases hrun.symm.trans hrun'
    rw [hbits b k hk, hno]; rfl
  | palm1 table hs hd =>
    have hread := hrun
    simp only [palm1Pixel, except_bind_eq_ok] at hread
    obtain ⟨i, hi, d, hr, _⟩ := hread
    obtain ⟨m1, hrun', hbits⟩ := palm1Pixel_bits (table := table) hd hi hr
    cases hrun.symm.trans hrun'
    rw [hbits b k hk, hno]; rfl
  | palc8 hs hd hc =>
    simp only [palc8Pixel, except_bind_eq_ok] at hrun
    obtain ⟨i, _, c, _, hw⟩ := hrun
    exact byte_kept hd ((hc ..).symm.trans hw)
  | c8c8 hs hd hc =>
    simp only [c8c8Pixel, except_bind_eq_ok] at hrun
    obtain ⟨c, _, hw⟩ := hrun
    exact byte_kept hd ((hc ..).symm.trans hw)
  | m1c8 hs hd hx =>
    simp only [m1c8Pixel, except_bind_eq_ok] at hrun
    obtain ⟨bit, _, hw⟩ := hrun
    split at hw
    · exact byte_kept hd hw
    · cases hw; rfl

/-- An answer whose next state, if it has one, holds every bit of no visited pixel as before (20_memory R78). -/
def KeepsUnvisited (a : BlitArgs) (s : State) (r : Answer) : Prop :=
  ∀ t, r = .next t → ∀ b k, k < 8 → (∀ p ∈ visited s a, ownsBit a.dst p b k = false) →
    bitAt s.epoch t.mem b k = bitAt s.epoch s.mem b k

section
variable {a : BlitArgs} {s : State}

theorem keepsUnvisited_of_mem {t : State} (h : t.mem = s.mem) : KeepsUnvisited a s (.next t) := by
  intro t' ht b k _ _
  cases ht
  rw [h]

theorem keepsUnvisited_refused (r : Refusal) : KeepsUnvisited a s (.refused r) := by
  intro t h; cases h

theorem keepsUnvisited_stop (x : Stop) : KeepsUnvisited a s (stopAnswer x) := by
  intro t h; cases x <;> cases h

theorem keepsUnvisited_runBlit {op : CompOp} {f : Px → Memory → Except Stop Memory}
    (hf : LoopPixel op (pixEnv s) a f) : KeepsUnvisited a s (runBlit f a s) := by
  intro t h b k hk hno
  obtain ⟨_, m, hrun, hend⟩ := runBlit_next h
  have hmem : t.mem = m := by
    obtain ⟨_, rfl⟩ | ⟨c, _, rfl⟩ := hend <;> rfl
  rw [hmem]
  exact runPixels_keeps (P := fun m => bitAt s.epoch m b k = bitAt s.epoch s.mem b k)
    (fun p hp m m' hpm hm => (hf.keeps_bit hpm hk (hno p hp)).trans hm) hrun rfl

theorem keepsUnvisited_rejectBlit (look : Px → Memory → Except Stop Unit) :
    KeepsUnvisited a s (rejectBlit look a s) := by
  intro t h
  have hmem : t.mem = s.mem := by
    obtain ⟨_, rfl⟩ | ⟨_, ⟨_, rfl⟩ | ⟨c, _, rfl⟩⟩ := rejectBlit_next h <;> rfl
  exact keepsUnvisited_of_mem hmem t rfl

theorem keepsUnvisited_withPalette {rest : State → Answer} (h : KeepsUnvisited a s (rest s)) :
    KeepsUnvisited a s (withPalette a s rest) := by
  unfold withPalette
  split
  · exact keepsUnvisited_of_mem rfl
  · exact h

theorem keepsUnvisited_withAlignment {ok : Bool} {rest : State → Answer} (h : KeepsUnvisited a s (rest s)) :
    KeepsUnvisited a s (withAlignment ok s rest) := by
  unfold withAlignment
  split
  · exact h
  · exact keepsUnvisited_of_mem rfl

theorem keepsUnvisited_runM1m1 (op : CompOp) (hs : a.src.format = .mono1) (hd : a.dst.format = .mono1) :
    KeepsUnvisited a s (runM1m1 a s op) := by
  by_cases hop : op ≠ .tint ∧ op ≠ .tintLuminance
  · obtain ⟨form, g, hg, hrow⟩ := runM1m1_form hop.1 hop.2
    rw [hrow]
    exact keepsUnvisited_withAlignment (keepsUnvisited_runBlit (op := op) (.m1m1 hs hd hg))
  · obtain rfl | rfl : op = .tint ∨ op = .tintLuminance := by simpa only [ne_eq, not_and_or, not_not] using hop
    · exact keepsUnvisited_refused _
    · exact keepsUnvisited_refused _

theorem keepsUnvisited_runPalm1P1 (lib : ColorLib) (op : CompOp) (hs : isPaletteFormat a.src.format = true)
    (hd : a.dst.format = .mono1) : KeepsUnvisited a s (runPalm1P1 lib a s op) := by
  cases hop : permittedFromPalette op with
  | true =>
    obtain ⟨recolor, hrow⟩ := runPalm1P1_permitted hop lib a s
    rw [hrow]
    refine keepsUnvisited_withPalette (keepsUnvisited_withAlignment ?_)
    split
    · exact keepsUnvisited_stop _
    · exact keepsUnvisited_runBlit (op := op) (.palm1 _ hs hd)
  | false =>
    rw [runPalm1P1_rejected hop]
    refine keepsUnvisited_withPalette (keepsUnvisited_withAlignment ?_)
    split
    · exact keepsUnvisited_stop _
    · exact keepsUnvisited_rejectBlit _

theorem keepsUnvisited_runPalc8P1 (lib : ColorLib) (op : CompOp) (hs : isPaletteFormat a.src.format = true)
    (hd : a.dst.format.isEightBit = true) : KeepsUnvisited a s (runPalc8P1 lib a s op) := by
  cases hop : permittedFromPalette op with
  | true =>
    obtain ⟨combine, paint, hc, hrow⟩ := runPalc8P1_permitted hop lib a s
    rw [hrow]
    exact keepsUnvisited_withPalette (keepsUnvisited_runBlit (op := op) (.palc8 hs hd hc))
  | false =>
    rw [runPalc8P1_rejected hop]
    exact keepsUnvisited_withPalette (keepsUnvisited_rejectBlit _)

theorem keepsUnvisited_runRoutine (lib : ColorLib) (op : CompOp) : KeepsUnvisited a s (runRoutine lib op a s) := by
  unfold runRoutine
  split
  · exact keepsUnvisited_of_mem rfl
  · rename_i hr
    obtain ⟨hs, hd⟩ := takes_of_dispatchPair hr
    exact keepsUnvisited_runM1m1 op hs hd
  · rename_i hr
    obtain ⟨hs, hd⟩ := takes_of_dispatchPair hr
    exact keepsUnvisited_runPalm1P1 lib op hs hd
  · rename_i hr
    obtain ⟨hs, hd⟩ := takes_of_dispatchPair hr
    rw [runPalm1P2_eq]
    exact keepsUnvisited_runPalm1P1 lib op hs hd
  · rename_i hr
    obtain ⟨hs, hd⟩ := takes_of_dispatchPair hr
    exact keepsUnvisited_runPalc8P1 lib op hs hd
  · rename_i hr
    obtain ⟨hs, hd⟩ := takes_of_dispatchPair hr
    rw [runPalc8P24_eq]
    exact keepsUnvisited_runPalc8P1 lib op hs hd
  · rename_i hr
    obtain ⟨hs, hd⟩ := takes_of_dispatchPair hr
    obtain ⟨combine, paint, hc, hrow⟩ := runC8c8_combine op lib a s
    rw [hrow]
    exact keepsUnvisited_runBlit (op := op) (.c8c8 hs hd hc)
  · rename_i hr
    obtain ⟨hs, hd⟩ := takes_of_dispatchPair hr
    obtain ⟨expand, hx, hrow⟩ := runM1c8_expand op a s
    rw [hrow]
    exact keepsUnvisited_withAlignment (keepsUnvisited_runBlit (op := op) (.m1c8 hs hd hx))

theorem keepsUnvisited_blitTiled (lib : ColorLib) (op : CompOp) : KeepsUnvisited a s (blitTiled lib op a s) := by
  unfold blitTiled
  split
  · exact keepsUnvisited_of_mem rfl
  · split
    · exact keepsUnvisited_of_mem rfl
    · intro t ht b k hk hno
      refine keepsUnvisited_runRoutine lib _ t ht b k hk ?_
      rw [visited_tint]
      exact hno

/-- BLIT and BLIT_AT write through their visited pixels alone. -/
theorem keepsUnvisited_exec {i : Instr} (hi : (i = .blit ∧ a = blitArgs s) ∨ (i = .blitAt ∧ a = blitAtArgs s)) :
    KeepsUnvisited a s (exec i s) := by
  rw [exec_blit_eq hi]
  unfold whenAccepting
  split
  · exact keepsUnvisited_of_mem rfl
  · exact keepsUnvisited_blitTiled engineLib _

end

/-! ### The other commands (20_memory R78, 47_framebuffer R284) -/

theorem memGet_fillBytes (m : Memory) (a : Nat) (v : Byte) (n b : Nat) (ha : a + n ≤ 4294967296) :
    memGet (fillBytes m a v n) b = if a ≤ b ∧ b < a + n then some v else memGet m b := by
  induction n generalizing m a with
  | zero => rw [fillBytes, if_neg (by omega)]
  | succ n ih =>
    rw [fillBytes, ih _ _ (by omega), memGet_memSet, pixAddr_natCast (by omega)]
    by_cases hb : b = a
    · rw [if_neg (by omega), if_pos hb, if_pos (by omega)]
    · rw [if_neg hb]
      exact if_congr (by omega) rfl rfl

theorem exec_fbClear_of_accepting {s : State} (h : accepting s = true) :
    exec .fbClear s = .next (endOk (setDirty
      (setMem s (fillBytes s.mem s.cfg.fbBase 0xFF (sizeBytes s.cfg))) (fbBounds s.cfg))) := by
  rw [exec, execFbClear, whenAccepting_of_accepting h]

/-- A command that leaves PIXMEM as it is. -/
def KeepsMem (f : State → Answer) : Prop := ∀ s t, f s = .next t → t.mem = s.mem

theorem keepsMem_whenAccepting {f : State → Answer} (hf : KeepsMem f) : KeepsMem fun s => whenAccepting s f := by
  intro s t (h : whenAccepting s f = .next t)
  unfold whenAccepting at h
  split at h
  · cases h; rfl
  · exact hf s t h

theorem keepsMem_next {f : State → State} (hf : ∀ s, (f s).mem = s.mem) : KeepsMem fun s => .next (f s) := by
  intro s t h; cases h; exact hf s

theorem keepsMem_execFbGetRow : KeepsMem execFbGetRow := by
  refine keepsMem_whenAccepting (keepsMem_next fun s => ?_)
  split <;> rfl

theorem keepsMem_execFbNextRow : KeepsMem execFbNextRow := by
  refine keepsMem_whenAccepting fun s t h => ?_
  dsimp only at h
  split at h
  · split at h
    · cases h
    · split at h
      · rename_i x _; cases x <;> cases h
      · cases h; rfl
  · cases h; rfl

theorem keepsMem_exec {i : Instr} (hi : i ∈ [.isNoop, .fbMarkDirty, .fbGetRow, .fbSizeBytes, .fbHasNextRow,
    .fbNextRow, .fbResetDirty]) : KeepsMem (exec i) := by
  simp only [List.mem_cons, List.not_mem_nil, or_false] at hi
  rcases hi with rfl | rfl | rfl | rfl | rfl | rfl | rfl
  · exact keepsMem_whenAccepting (keepsMem_next fun _ => rfl)
  · exact keepsMem_whenAccepting (keepsMem_next fun _ => rfl)
  · exact keepsMem_execFbGetRow
  · exact keepsMem_whenAccepting (keepsMem_next fun _ => rfl)
  · exact keepsMem_whenAccepting (keepsMem_next fun _ => rfl)
  · exact keepsMem_execFbNextRow
  · exact keepsMem_whenAccepting (keepsMem_next fun _ => rfl)

/-- Settles O41: a BLIT bit by bit, FB_CLEAR as one fill, the other seven commands by their equations. -/
theorem onlyVisitedPixelsAreWritten : Obligations.OnlyVisitedPixelsAreWritten := by
  refine ⟨fun s t i a hi h => ⟨fun b hb => ?_, fun hd b k hk hb => ?_⟩, fun s t hc h b hb => ?_,
    fun s t hacc hc h i hlt => ?_, fun s t i hi h => keepsMem_exec hi s t h⟩
  · refine peek_eq_of_bitAt_eq fun k hk => keepsUnvisited_exec hi t h b k hk fun p hp => ?_
    exact Bool.eq_false_iff.2 fun hown => hb p hp (mem_dstBytes_of_ownsBit hown)
  · refine keepsUnvisited_exec hi t h b k hk fun p hp => ?_
    rw [← Bool.not_eq_true, ownsBit_mono1 hd, not_and_or]
    exact hb p hp
  · cases hacc : accepting s with
    | false =>
      rw [exec, execFbClear, whenAccepting_of_halted hacc] at h
      cases h; rfl
    | true =>
      rw [exec_fbClear_of_accepting hacc] at h
      cases h
      have hout : ¬ (s.cfg.fbBase ≤ b ∧ b < s.cfg.fbBase + sizeBytes s.cfg) := fun hin =>
        hb (b - s.cfg.fbBase) (by omega) (by omega)
      exact (memGet_fillBytes _ _ _ _ _ (cfgWf_space hc)).trans (if_neg hout)
  · rw [exec_fbClear_of_accepting hacc] at h
    cases h
    exact (memGet_fillBytes _ _ _ _ _ (cfgWf_space hc)).trans (if_pos (by omega))

end Sys2Proof.Machine
end

section
/-! PROOFS. A BLIT with `Assign` repeated (20_memory R69, R72, 42_mono1_to_mono1 R183). -/

namespace Sys2Proof.Machine

/-! ### What is read of the source stays the same while its bytes do (20_memory R72) -/

theorem palIndex_congr {e : PixEnv} {m m' : Memory} {b : Bitmap} {x y : Int}
    (h : peek e.epoch m' (pixAddr (palByteAddr b x y)) = peek e.epoch m (pixAddr (palByteAddr b x y))) :
    palIndex e m' b x y = palIndex e m b x y := by
  simp only [palIndex, readByte_congr h]

theorem palIndex_lt {e : PixEnv} {m : Memory} {b : Bitmap} {x y : Int} {i : Nat} (h : palIndex e m b x y = .ok i) :
    i < 2 ^ bpp b.format := by
  simp only [palIndex, except_bind_eq_ok] at h
  obtain ⟨v, _, hv⟩ := h
  cases hv
  exact Nat.mod_lt _ (Nat.two_pow_pos _)

theorem ditherTable_congr {lib : ColorLib} {recolor : Color → Color} {e : PixEnv} {m m' : Memory} {b : Bitmap}
    {n i : Nat} (h : ∀ k, k < i + n → peek e.epoch m' (pixAddr (b.palette + (k : Nat)))
      = peek e.epoch m (pixAddr (b.palette + (k : Nat)))) :
    ditherTable lib recolor e m' b i n = ditherTable lib recolor e m b i n := by
  induction n generalizing i with
  | zero => rfl
  | succ n ih =>
    have hcolor : palColor e m' b i = palColor e m b i := readByte_congr (h i (by omega))
    simp only [ditherTable, hcolor, ih (i := i + 1) fun k hk => h k (by omega)]

/-! ### A pixel that assigns -/

/-- Wherever the source reads as in `s`, the pixel runs and gives its own bits the same values `v`, but for those it
leaves as they are. -/
def Assigns (s : State) (a : BlitArgs) (p : Px) (F : Memory → Except Stop Memory) : Prop :=
  ∃ v : Nat → Option Bool, ∀ m, sourceKept s a m → ∃ m', F m = .ok m' ∧ ∀ b k, k < 8 →
    bitAt s.epoch m' b k
      = if ownsBit a.dst p b k then (v k).getD (bitAt s.epoch m b k) else bitAt s.epoch m b k

/-- A routine's pixel that assigns, if it can run at all. -/
def AssignsOnceRun (s : State) (a : BlitArgs) (f : Px → Memory → Except Stop Memory) : Prop :=
  ∀ p ∈ visited s a, ∀ m m', sourceKept s a m → f p m = .ok m' → Assigns s a p (f p)

section
variable {s : State} {a : BlitArgs} {p : Px}

theorem source_reads_same {m m' : Memory} (hm : sourceKept s a m) (hm' : sourceKept s a m') (hp : p ∈ visited s a) :
    ∀ b ∈ srcBytes a.src p, peek s.epoch m' b = peek s.epoch m b :=
  fun b hb => (hm' b (.inr ⟨p, hp, hb⟩)).trans (hm b (.inr ⟨p, hp, hb⟩)).symm

theorem palette_reads_same {m m' : Memory} (hm : sourceKept s a m) (hm' : sourceKept s a m') :
    ∀ b ∈ paletteBytes a.src, peek s.epoch m' b = peek s.epoch m b :=
  fun b hb => (hm' b (.inl hb)).trans (hm b (.inl hb)).symm

theorem assigns_of_writeByte {F : Memory → Except Stop Memory} {c : Color} {m₀ m₁ : Memory}
    (hd : a.dst.format.isEightBit = true) (hw : writeByte (pixEnv s) m₀ (dstAddr a.dst p) c = .ok m₁)
    (hF : ∀ m, sourceKept s a m → F m = writeByte (pixEnv s) m (dstAddr a.dst p) c) : Assigns s a p F := by
  obtain ⟨hb, _⟩ := writeByte_eq_ok.1 hw
  refine ⟨fun k => some (c.getLsbD k), fun m hm => ?_⟩
  have hwrite := writeByte_of_backed (m := m) c hb
  exact ⟨_, (hF m hm).trans hwrite, fun b k _ => bitAt_writeByte hd hwrite b k⟩

/-- A word that was read once can be read whatever it holds. -/
theorem readWord_again {e : PixEnv} {m : Memory} {x : Int} {d : Word} (h : readWord e m x = .ok d) (m' : Memory) :
    ∃ d', readWord e m' x = .ok d' := by
  obtain ⟨d', hd', _⟩ := readWord_of_backed (m := m') fun _ ht => backed_of_readWord h ht
  exact ⟨d', hd'⟩

theorem assigns_m1m1 (hs : a.src.format = .mono1) (hd : a.dst.format = .mono1) :
    AssignsOnceRun s a (m1m1Pixel m1m1AssignForm (pixEnv s) a) := by
  intro p hp m₀ m₁ hm₀ hrun
  simp only [m1m1Pixel, except_bind_eq_ok] at hrun
  obtain ⟨w, hw, d, hr, _⟩ := hrun
  refine ⟨fun _ => some ((rotl32 w (alignRotation p.dx p.sx)).getLsbD (p.dx % 32).toNat), fun m hm => ?_⟩
  have hw' : readWord (pixEnv s) m (monoWordAddr a.src (p.sx / 32) p.sy) = .ok w :=
    (readWord_congr (srcBytes_mono1 hs p ▸ source_reads_same hm₀ hm hp)).trans hw
  obtain ⟨d', hr'⟩ := readWord_again hr m
  obtain ⟨m', hrun', hbits⟩ := m1m1Pixel_bits m1m1AssignForm_is hd hw' hr'
  exact ⟨m', hrun', hbits⟩

theorem palIndex_same {m m₀ : Memory} (hs : isPaletteFormat a.src.format = true) (hm₀ : sourceKept s a m₀)
    (hm : sourceKept s a m) (hp : p ∈ visited s a) :
    palIndex (pixEnv s) m a.src p.sx p.sy = palIndex (pixEnv s) m₀ a.src p.sx p.sy :=
  palIndex_congr (source_reads_same hm₀ hm hp _ (by rw [srcBytes_palette hs]; exact List.mem_singleton_self _))

theorem assigns_palm1 (table : List DitherEntry) (hs : isPaletteFormat a.src.format = true)
    (hd : a.dst.format = .mono1) : AssignsOnceRun s a (palm1Pixel table (pixEnv s) a) := by
  intro p hp m₀ m₁ hm₀ hrun
  simp only [palm1Pixel, except_bind_eq_ok] at hrun
  obtain ⟨i, hi, d, hr, _⟩ := hrun
  refine ⟨fun _ => if (table.getD i default).transparent then none
    else some ((ditherPattern (table.getD i default) p.dy).getLsbD (p.dx % 32).toNat), fun m hm => ?_⟩
  have hi' := (palIndex_same hs hm₀ hm hp).trans hi
  obtain ⟨d', hr'⟩ := readWord_again hr m
  obtain ⟨m', hrun', hbits⟩ := palm1Pixel_bits (table := table) hd hi' hr'
  refine ⟨m', hrun', fun b k hk => (hbits b k hk).trans ?_⟩
  cases (table.getD i default).transparent <;> rfl

theorem assigns_palc8 (hs : isPaletteFormat a.src.format = true) (hd : a.dst.format.isEightBit = true) :
    AssignsOnceRun s a (palc8Pixel combineCopy (pixEnv s) a) := by
  intro p hp m₀ m₁ hm₀ hrun
  simp only [palc8Pixel, except_bind_eq_ok] at hrun
  obtain ⟨i, hi, c, hc, hw⟩ := hrun
  refine assigns_of_writeByte hd hw fun m hm => ?_
  have hi' := (palIndex_same hs hm₀ hm hp).trans hi
  have hc' : palColor (pixEnv s) m a.src i = .ok c :=
    (readByte_congr (palette_reads_same hm₀ hm _ (mem_paletteBytes hs (palIndex_lt hi)))).trans hc
  simp only [palc8Pixel, hi', hc', bind, Except.bind, combineCopy]

theorem assigns_c8c8 (hs : a.src.format.isEightBit = true) (hd : a.dst.format.isEightBit = true) :
    AssignsOnceRun s a (c8c8Pixel combineCopy (pixEnv s) a) := by
  intro p hp m₀ m₁ hm₀ hrun
  simp only [c8c8Pixel, except_bind_eq_ok] at hrun
  obtain ⟨c, hc, hw⟩ := hrun
  refine assigns_of_writeByte hd hw fun m hm => ?_
  have hc' : readByte (pixEnv s) m (p.srcPtr + p.sx) = .ok c :=
    (readByte_congr (source_reads_same hm₀ hm hp _
      (by rw [srcBytes_eightBit hs]; exact List.mem_singleton_self _))).trans hc
  simp only [c8c8Pixel, hc', bind, Except.bind, combineCopy]

/-- M1C8 assigns with any expansion that accesses the destination for either bit (46_mono1_to_color8 R262). -/
theorem assigns_m1c8 {expand : Expand} (hx : ∀ bit, ∃ c, expand bit = some c) (hs : a.src.format = .mono1)
    (hd : a.dst.format.isEightBit = true) : AssignsOnceRun s a (m1c8Pixel expand (pixEnv s) a) := by
  intro p hp m₀ m₁ hm₀ hrun
  simp only [m1c8Pixel, except_bind_eq_ok] at hrun
  obtain ⟨bit, hbit, hw⟩ := hrun
  obtain ⟨c, hc⟩ := hx bit
  rw [hc] at hw
  refine assigns_of_writeByte hd hw fun m hm => ?_
  have hbit' : monoBit (pixEnv s) m a.src p.sx p.sy = .ok bit := by
    have hword := readWord_congr (e := pixEnv s) (srcBytes_mono1 hs p ▸ source_reads_same hm₀ hm hp)
    rw [← hbit]
    simp only [monoBit, hword]
  simp only [m1c8Pixel, hbit', hc, bind, Except.bind]

end

/-! ### A loop of pixels that assign lays the same bits over whatever PIXMEM holds -/

/-- Wherever the source reads as in `s`, the operation runs, keeps it so, and lays the bits of `g` over PIXMEM. -/
def Overlays (s : State) (a : BlitArgs) (g : Nat → Nat → Option Bool) (F : Memory → Except Stop Memory) : Prop :=
  ∀ m, sourceKept s a m → ∃ m', F m = .ok m' ∧ sourceKept s a m' ∧ ∀ b k, k < 8 →
    bitAt s.epoch m' b k = (g b k).getD (bitAt s.epoch m b k)

section
variable {s : State} {a : BlitArgs}

theorem sourceKept_self : sourceKept s a s.mem := fun _ _ => rfl

/-- A pixel apart from the source keeps it (20_memory R72). -/
theorem Assigns.overlays {F : Memory → Except Stop Memory} {p : Px} (h : Assigns s a p F)
    (hapart : footprintsMeet a (visited s a) = false) (hp : p ∈ visited s a) : ∃ g, Overlays s a g F := by
  obtain ⟨v, hv⟩ := h
  refine ⟨fun b k => if ownsBit a.dst p b k then v k else none, fun m hm => ?_⟩
  obtain ⟨m', hrun, hbits⟩ := hv m hm
  refine ⟨m', hrun, fun b hb => ?_, fun b k hk => ?_⟩
  · rw [← hm b hb]
    refine peek_eq_of_bitAt_eq fun k hk => ?_
    rw [hbits b k hk, if_neg]
    exact fun hown => not_sourceByte hapart hp (mem_dstBytes_of_ownsBit hown) hb
  · rw [hbits b k hk]
    dsimp only
    cases ownsBit a.dst p b k <;> rfl

theorem overlays_nil (f : Px → Memory → Except Stop Memory) :
    Overlays s a (fun _ _ => none) (runPixels f []) := fun m hm => ⟨m, rfl, hm, fun _ _ _ => rfl⟩

/-- The bits of the later pixels lie over those of the first (20_memory R71). -/
theorem overlays_cons {f : Px → Memory → Except Stop Memory} {p : Px} {ps : List Px} {g g' : Nat → Nat → Option Bool}
    (h : Overlays s a g (f p)) (h' : Overlays s a g' (runPixels f ps)) :
    Overlays s a (fun b k => (g' b k).or (g b k)) (runPixels f (p :: ps)) := by
  intro m hm
  obtain ⟨m1, hrun1, hm1, hbits1⟩ := h m hm
  obtain ⟨m2, hrun2, hm2, hbits2⟩ := h' m1 hm1
  refine ⟨m2, by simp only [runPixels, hrun1, hrun2], hm2, fun b k hk => ?_⟩
  rw [hbits2 b k hk, hbits1 b k hk]
  dsimp only
  cases g' b k <;> rfl

theorem overlays_runPixels {f : Px → Memory → Except Stop Memory} {px : List Px}
    (hf : ∀ p ∈ px, ∀ m m', sourceKept s a m → f p m = .ok m' → ∃ g, Overlays s a g (f p)) {m m' : Memory}
    (hm : sourceKept s a m) (hrun : runPixels f px m = .ok m') : ∃ g, Overlays s a g (runPixels f px) := by
  induction px generalizing m with
  | nil => exact ⟨_, overlays_nil f⟩
  | cons p ps ih =>
    simp only [runPixels] at hrun
    split at hrun
    · cases hrun
    · rename_i m1 hp
      obtain ⟨g, hg⟩ := hf p (List.mem_cons_self ..) m m1 hm hp
      obtain ⟨m1', hp', hm1, _⟩ := hg m hm
      cases hp.symm.trans hp'
      obtain ⟨g', hg'⟩ := ih (fun q hq => hf q (List.mem_cons_of_mem _ hq)) hm1 hrun
      exact ⟨_, overlays_cons hg hg'⟩

/-- What lays the same bits over PIXMEM twice leaves what it left the first time. -/
theorem Overlays.again {g : Nat → Nat → Option Bool} {F : Memory → Except Stop Memory} {m m' : Memory}
    (h : Overlays s a g F) (hm : sourceKept s a m) (hrun : F m = .ok m') :
    sourceKept s a m' ∧ ∃ m'', F m' = .ok m'' ∧ ∀ b, peek s.epoch m'' b = peek s.epoch m' b := by
  obtain ⟨m1, hrun1, hm1, hbits1⟩ := h m hm
  cases hrun.symm.trans hrun1
  obtain ⟨m2, hrun2, _, hbits2⟩ := h m' hm1
  refine ⟨hm1, m2, hrun2, fun b => peek_eq_of_bitAt_eq fun k hk => ?_⟩
  rw [hbits2 b k hk, hbits1 b k hk]
  cases g b k <;> rfl

/-! ### A command repeated after it has ended with OK or an error -/

theorem accepting_raiseFatal (c : FatalCause) (s : State) : accepting (raiseFatal c s) = false := by
  have h : statusFatal (raiseFatal c s).status = true := statusFatal_withFatal s.status c
  simpa [accepting, statusFatal] using h

/-- A loop of assigning pixels that ended with OK runs again and leaves every byte as it finds it. -/
theorem runBlit_again {f : Px → Memory → Except Stop Memory} {t : State} (hf : AssignsOnceRun s a f)
    (h : runBlit f a s = .next t) (ht : accepting t = true) :
    ∃ m, t = endOk (setMem s m) ∧ sourceKept s a m
      ∧ ∃ u, runBlit f a t = .next u ∧ ∀ b, peek s.epoch u.mem b = peek s.epoch t.mem b := by
  obtain ⟨hapart, m, hrun, ⟨hstop, rfl⟩ | ⟨c, _, rfl⟩⟩ := runBlit_next h
  · obtain ⟨g, hg⟩ := overlays_runPixels
      (fun p hp m m' hm hpm => (hf p hp m m' hm hpm).overlays hapart hp) sourceKept_self hrun
    obtain ⟨hm, m', hrun', hsame⟩ := hg.again sourceKept_self hrun
    refine ⟨m, rfl, hm, endOk (setMem (endOk (setMem s m)) m'), ?_, hsame⟩
    rw [runBlit_of_run (s := endOk (setMem s m)) hapart hrun']
    simp only [endOk_cfg, setMem_cfg, hstop, endRows]
  · rw [accepting_raiseFatal] at ht; cases ht

end

/-- A meaning that, having ended in a state that executes commands, runs again and leaves every byte of PIXMEM as it
finds it. -/
def Repeats (F : State → Answer) : Prop :=
  ∀ s t, F s = .next t → accepting t = true →
    ∃ u, F t = .next u ∧ ∀ b, peek s.epoch u.mem b = peek s.epoch t.mem b

/-- An error that is reported again (60_exceptions R311). -/
theorem repeats_raiseError (c : ResultCode) : Repeats fun s => .next (raiseError c s) := by
  intro s t h _
  cases h
  exact ⟨_, rfl, fun _ => rfl⟩

theorem repeats_withPalette {a : BlitArgs} {rest : State → Answer} (h : Repeats rest) :
    Repeats fun s => withPalette a s rest := by
  by_cases hp : a.src.palette = 0
  · simp only [withPalette, if_pos hp]
    exact repeats_raiseError .missingPalette
  · simp only [withPalette_of_present hp]
    exact h

theorem repeats_withAlignment {ok : Bool} {rest : State → Answer} (h : Repeats rest) :
    Repeats fun s => withAlignment ok s rest := by
  cases ok with
  | true => exact h
  | false =>
    intro s t hs ht
    cases hs
    rw [accepting_raiseFatal] at ht; cases ht

theorem repeats_runBlit {a : BlitArgs} (f : PixEnv → Px → Memory → Except Stop Memory)
    (hf : ∀ s, AssignsOnceRun s a (f (pixEnv s))) : Repeats fun s => runBlit (f (pixEnv s)) a s := by
  intro s t h ht
  obtain ⟨m, rfl, _, hagain⟩ := runBlit_again (hf s) h ht
  exact hagain

/-- PALM1 builds the same table again, the palette being apart from what it writes (43_palette_to_mono1 R202). -/
theorem repeats_palm1 {lib : ColorLib} {recolor : Color → Color} {a : BlitArgs}
    (hs : isPaletteFormat a.src.format = true) (hd : a.dst.format = .mono1) : Repeats (palm1 lib recolor a) := by
  refine repeats_withPalette (repeats_withAlignment fun s t h ht => ?_)
  split at h
  · rename_i x _; cases x <;> cases h
  · rename_i table htable
    obtain ⟨m, rfl, hm, hagain⟩ := runBlit_again (assigns_palm1 table hs hd) h ht
    have htable' : ditherTable lib recolor (pixEnv (endOk (setMem s m))) (endOk (setMem s m)).mem a.src 0
        (2 ^ bpp a.src.format) = .ok table :=
      (ditherTable_congr (e := pixEnv s) fun k hk =>
        hm _ (.inl (mem_paletteBytes hs (by rwa [Nat.zero_add] at hk)))).trans htable
    simp only [htable']
    exact hagain

theorem repeats_runRoutine (lib : ColorLib) (a : BlitArgs) : Repeats (runRoutine lib .assign a) := by
  unfold runRoutine
  split
  · exact repeats_raiseError .unsupportedFormatPair
  · rename_i hr
    obtain ⟨hs, hd⟩ := takes_of_dispatchPair hr
    exact repeats_withAlignment (repeats_runBlit (fun e => m1m1Pixel m1m1AssignForm e a) fun s => assigns_m1m1 hs hd)
  · rename_i hr
    obtain ⟨hs, hd⟩ := takes_of_dispatchPair hr
    exact repeats_palm1 hs hd
  · rename_i hr
    obtain ⟨hs, hd⟩ := takes_of_dispatchPair hr
    exact repeats_palm1 hs hd
  · rename_i hr
    obtain ⟨hs, hd⟩ := takes_of_dispatchPair hr
    exact repeats_withPalette (repeats_runBlit (fun e => palc8Pixel combineCopy e a) fun s => assigns_palc8 hs hd)
  · rename_i hr
    obtain ⟨hs, hd⟩ := takes_of_dispatchPair hr
    exact repeats_withPalette (repeats_runBlit (fun e => palc8Pixel combineCopy e a) fun s => assigns_palc8 hs hd)
  · rename_i hr
    obtain ⟨hs, hd⟩ := takes_of_dispatchPair hr
    exact repeats_runBlit (fun e => c8c8Pixel combineCopy e a) fun s => assigns_c8c8 hs hd
  · rename_i hr
    obtain ⟨hs, hd⟩ := takes_of_dispatchPair hr
    have hx (bit : Bool) : ∃ c, (if bit then some white else some black) = some c := by
      cases bit <;> exact ⟨_, rfl⟩
    exact repeats_withAlignment (repeats_runBlit
      (fun e => m1c8Pixel (fun bit => if bit then some white else some black) e a) fun s => assigns_m1c8 hx hs hd)

/-! ### BLIT with Assign -/

/-- `Assign` takes no no-op path and passes the normalisation unchanged (41_dispatch R162, R164). -/
theorem exec_blit_assign {s : State} (hacc : accepting s = true) (hop : opField s.ctrl = .assign) :
    exec .blit s = runRoutine engineLib .assign (blitArgs s) s := by
  have hnoop : isNoopTint (opField s.ctrl) (tintField s.ctrl) = false := by rw [hop]; rfl
  have hnorm : normalise engineLib (blitArgs s).dst.format (opField s.ctrl) (tintField s.ctrl)
      = some (.assign, tintField s.ctrl) := by simp [normalise, hop]
  exact (exec_blit_eq_runRoutine hacc (.inl ⟨rfl, rfl⟩) hnoop hnorm).1

/-- A BLIT leaves its own operands as they are (41_dispatch R161). -/
theorem operands_of_blitEnd {s t : State} (h : BlitEnd s t) :
    blitArgs t = blitArgs s ∧ opField t.ctrl = opField s.ctrl := by
  cases h <;> exact ⟨rfl, rfl⟩

/-- Settles O44: where the first BLIT has halted the engine the second executes nothing; otherwise it lays the same bits
over the same places. -/
theorem assignIsIdempotent : Obligations.AssignIsIdempotent := by
  intro s t hop h
  obtain ⟨hargs, hop'⟩ := operands_of_blitEnd (exec_ends (i := .blit) (by simp [otherCommands]) s t h)
  cases ht : accepting t with
  | false =>
    refine ⟨t, ?_, fun _ => rfl⟩
    rw [exec, execBlit, whenAccepting_of_halted ht]
  | true =>
    rw [exec_blit_assign ht (hop'.trans hop), hargs]
    cases hs : accepting s with
    | false =>
      rw [exec, execBlit, whenAccepting_of_halted hs] at h
      cases h
      rw [hs] at ht; cases ht
    | true =>
      rw [exec_blit_assign hs hop] at h
      exact repeats_runRoutine engineLib (blitArgs s) s t h ht

end Sys2Proof.Machine
end

section
/-! PROOFS. The dispatch key field by field, and the decoder and the encoder as inverses (30_encoding R95 to R105). -/

namespace Sys2Proof.Machine

/-! ### Codes and the fields of the key (30_encoding R95, R96, R104) -/

@[simp] theorem fmtOfCode_fmtCode (f : PixelFormat) : fmtOfCode (fmtCode f) = f := by cases f <;> rfl

@[simp] theorem opOfCode_opCode (op : CompOp) : opOfCode (opCode op) = op := by cases op <;> rfl

@[simp] theorem fmtCode_fmtOfCode (c : BitVec 3) : fmtCode (fmtOfCode c) = c := by revert c; decide

@[simp] theorem opCode_opOfCode (c : BitVec 3) : opCode (opOfCode c) = c := by revert c; decide

theorem opCode_inj {a b : CompOp} : opCode a = opCode b ↔ a = b :=
  ⟨fun h => by rw [← opOfCode_opCode a, h, opOfCode_opCode], congrArg opCode⟩

/-- The six format bits of a key (30_encoding R104). -/
def pairCode (d f : PixelFormat) : BitVec 6 := fmtCode d ++ fmtCode f

theorem dispatchKey_eq (op : CompOp) (d f : PixelFormat) :
    dispatchKey op d f = (opCode op ++ pairCode d f : BitVec 9) := BitVec.append_assoc

@[simp] theorem opField_dispatchKey (op : CompOp) (d f : PixelFormat) :
    opOfCode ((dispatchKey op d f).extractLsb' 6 3) = op := by
  rw [dispatchKey_eq, BitVec.extractLsb'_append_eq_left, opOfCode_opCode]

@[simp] theorem dstField_dispatchKey (op : CompOp) (d f : PixelFormat) :
    fmtOfCode ((dispatchKey op d f).extractLsb' 3 3) = d := by
  have h : (dispatchKey op d f).extractLsb' 3 3 = fmtCode d := by
    rw [dispatchKey, BitVec.extractLsb'_append_eq_of_le (by omega), BitVec.extractLsb'_append_eq_right]
  rw [h, fmtOfCode_fmtCode]

@[simp] theorem srcField_dispatchKey (op : CompOp) (d f : PixelFormat) :
    fmtOfCode ((dispatchKey op d f).extractLsb' 0 3) = f := by
  rw [dispatchKey, BitVec.extractLsb'_append_eq_right, fmtOfCode_fmtCode]

/-- Every nine-bit value is a key: no code of its three fields is left out (30_encoding R95, R96). -/
theorem exists_dispatchKey (k : BitVec 9) : ∃ op d f, dispatchKey op d f = k := by
  refine ⟨opOfCode (k.extractLsb' 6 3), fmtOfCode (k.extractLsb' 3 3), fmtOfCode (k.extractLsb' 0 3), ?_⟩
  simp only [dispatchKey, opCode_opOfCode, fmtCode_fmtOfCode]
  rw [BitVec.extractLsb'_append_extractLsb'_eq_extractLsb' (show 6 = 3 + 3 from rfl)]
  exact BitVec.extractLsb'_append_extractLsb'

/-! ### The instruction of a key (30_encoding R105) -/

/-- The row of a routine for an operator. -/
def Routine.instr (r : Routine) (op : CompOp) (d f : PixelFormat) : Instr :=
  match r, op with
  | .m1m1, .assign => .m1m1Assign
  | .m1m1, .assignInverted => .m1m1AssignInverted
  | .m1m1, .or => .m1m1Or
  | .m1m1, .and => .m1m1And
  | .m1m1, .clear => .m1m1Clear
  | .m1m1, .set => .m1m1Set
  | .m1m1, .tint => .m1m1Tint
  | .m1m1, .tintLuminance => .m1m1TintLuminance
  | .palm1P1, .assign => .palm1AssignP1
  | .palm1P1, .assignInverted => .palm1AssignInvertedP1
  | .palm1P1, .or => .palm1OrP1
  | .palm1P1, .and => .palm1AndP1
  | .palm1P1, .clear => .palm1ClearP1
  | .palm1P1, .set => .palm1SetP1
  | .palm1P1, .tint => .palm1TintP1
  | .palm1P1, .tintLuminance => .palm1TintLuminanceP1
  | .palm1P2, .assign => .palm1AssignP2
  | .palm1P2, .assignInverted => .palm1AssignInvertedP2
  | .palm1P2, .or => .palm1OrP2
  | .palm1P2, .and => .palm1AndP2
  | .palm1P2, .clear => .palm1ClearP2
  | .palm1P2, .set => .palm1SetP2
  | .palm1P2, .tint => .palm1TintP2
  | .palm1P2, .tintLuminance => .palm1TintLuminanceP2
  | .palc8P1, .assign => .palc8AssignP1 d
  | .palc8P1, .assignInverted => .palc8AssignInvertedP1 d
  | .palc8P1, .or => .palc8OrP1 d
  | .palc8P1, .and => .palc8AndP1 d
  | .palc8P1, .clear => .palc8ClearP1 d
  | .palc8P1, .set => .palc8SetP1 d
  | .palc8P1, .tint => .palc8TintP1 d
  | .palc8P1, .tintLuminance => .palc8TintLuminanceP1 d
  | .palc8P24, .assign => .palc8AssignP24 d f
  | .palc8P24, .assignInverted => .palc8AssignInvertedP24 d f
  | .palc8P24, .or => .palc8OrP24 d f
  | .palc8P24, .and => .palc8AndP24 d f
  | .palc8P24, .clear => .palc8ClearP24 d f
  | .palc8P24, .set => .palc8SetP24 d f
  | .palc8P24, .tint => .palc8TintP24 d f
  | .palc8P24, .tintLuminance => .palc8TintLuminanceP24 d f
  | .c8c8, .assign => .c8c8Assign d f
  | .c8c8, .assignInverted => .c8c8AssignInverted d f
  | .c8c8, .or => .c8c8Or d f
  | .c8c8, .and => .c8c8And d f
  | .c8c8, .clear => .c8c8Clear d f
  | .c8c8, .set => .c8c8Set d f
  | .c8c8, .tint => .c8c8Tint d f
  | .c8c8, .tintLuminance => .c8c8TintLuminance d f
  | .m1c8, .assign => .m1c8Assign d
  | .m1c8, .assignInverted => .m1c8AssignInverted d
  | .m1c8, .or => .m1c8Or d
  | .m1c8, .and => .m1c8And d
  | .m1c8, .clear => .m1c8Clear d
  | .m1c8, .set => .m1c8Set d
  | .m1c8, .tint => .m1c8Tint d
  | .m1c8, .tintLuminance => .m1c8TintLuminance d

/-- The row of a pair of formats without a routine. -/
def unsupportedInstr (op : CompOp) (d f : PixelFormat) : Instr :=
  match d with
  | .palette1 => .unsupportedDPalette1 op f
  | .palette2 | .palette4 => .unsupportedDPalette24 op d f
  | .reserved6 | .reserved7 => .unsupportedDReserved op d f
  | .mono1 => if f = .palette4 then .unsupportedMono1FromP4 op else .unsupportedMono1FromC8OrReserved op f
  | .color8 | .color8Circular => .unsupportedC8FromReserved op d f

/-- The row of a key: the formats select the routine as a dispatch does, the operator its row (41_dispatch R160). -/
def keyInstr (op : CompOp) (d f : PixelFormat) : Instr :=
  match dispatchPair f d with
  | some r => r.instr op d f
  | none => unsupportedInstr op d f

/-! ### The table of the dispatch keys, operator by operator (30_encoding R105) -/

/-- A row of the table matches a key (30_encoding R105). -/
def rowMatches (k : BitVec 9) (r : KeyRow) : Bool := k &&& r.mask == r.pat

/-- A row's pattern over the six format bits of the key alone. -/
structure PairRow where
  mask : BitVec 6
  pat : BitVec 6
  build : CompOp → PixelFormat → PixelFormat → Instr

/-- The pattern matches a pair of formats. -/
def PairRow.holds (d f : PixelFormat) (r : PairRow) : Bool := pairCode d f &&& r.mask == r.pat

/-- The row of the table with this pattern and one operator. -/
def PairRow.under (op : CompOp) (r : PairRow) : KeyRow :=
  ⟨0b111#3 ++ r.mask, opCode op ++ r.pat, fun _ => r.build op⟩

/-- The row of the table with this pattern and any operator. -/
def PairRow.underAny (r : PairRow) : KeyRow := ⟨0b000#3 ++ r.mask, 0b000#3 ++ r.pat, r.build⟩

/-- The patterns of the pairs with a routine, in the order of the table's five parts. -/
def routinePairs : List (List PairRow) := [
  [⟨0b111_111, 0b000_000, Routine.m1m1.instr⟩],
  [⟨0b111_111, 0b000_001, Routine.palm1P1.instr⟩, ⟨0b111_111, 0b000_010, Routine.palm1P2.instr⟩],
  [⟨0b110_111, 0b100_001, Routine.palc8P1.instr⟩, ⟨0b110_110, 0b100_010, Routine.palc8P24.instr⟩],
  [⟨0b110_110, 0b100_100, Routine.c8c8.instr⟩],
  [⟨0b110_111, 0b100_000, Routine.m1c8.instr⟩]]

/-- The patterns of the pairs without a routine (41_dispatch R166). -/
def unsupportedPairs : List PairRow := [
  ⟨0b111_000, 0b001_000, fun op _ f => .unsupportedDPalette1 op f⟩,
  ⟨0b110_000, 0b010_000, .unsupportedDPalette24⟩,
  ⟨0b110_000, 0b110_000, .unsupportedDReserved⟩,
  ⟨0b111_111, 0b000_011, fun op _ _ => .unsupportedMono1FromP4 op⟩,
  ⟨0b111_100, 0b000_100, fun op _ f => .unsupportedMono1FromC8OrReserved op f⟩,
  ⟨0b110_110, 0b100_110, .unsupportedC8FromReserved⟩]

/-- The operators in the order of their codes (30_encoding R96). -/
def allOps : List CompOp := [.assign, .assignInverted, .or, .and, .clear, .set, .tint, .tintLuminance]

/-- Every pattern of a part under every operator. -/
def opRows (rs : List PairRow) : List KeyRow := allOps.flatMap fun op => rs.map (PairRow.under op)

/-- The 62 rows: the pairs with a routine under each operator, and those without under any. -/
theorem keyRows_eq : keyRows = routinePairs.flatMap opRows ++ unsupportedPairs.map PairRow.underAny := rfl

/-- A mask over two fields is a mask over each. -/
theorem append_and_append_eq_iff {w v : Nat} {x m p : BitVec w} {y n q : BitVec v} :
    (x ++ y) &&& (m ++ n) = p ++ q ↔ x &&& m = p ∧ y &&& n = q := by
  rw [BitVec.and_append]
  refine ⟨fun h => ⟨?_, ?_⟩, fun ⟨hx, hy⟩ => by rw [hx, hy]⟩
  · simpa only [BitVec.extractLsb'_append_eq_left] using congrArg (BitVec.extractLsb' v w) h
  · simpa only [BitVec.extractLsb'_append_eq_right] using congrArg (BitVec.extractLsb' 0 v) h

theorem rowMatches_under (op o : CompOp) (d f : PixelFormat) (r : PairRow) :
    rowMatches (dispatchKey op d f) (r.under o) = (decide (op = o) && r.holds d f) := by
  have hop : opCode op &&& 0b111#3 = opCode op := BitVec.and_allOnes
  have hfields : dispatchKey op d f &&& (r.under o).mask = (r.under o).pat
      ↔ opCode op &&& 0b111#3 = opCode o ∧ pairCode d f &&& r.mask = r.pat := by
    rw [dispatchKey_eq]; exact append_and_append_eq_iff
  rw [Bool.eq_iff_iff, rowMatches, beq_iff_eq, hfields, hop, opCode_inj]
  simp [PairRow.holds]

theorem rowMatches_underAny (op : CompOp) (d f : PixelFormat) (r : PairRow) :
    rowMatches (dispatchKey op d f) r.underAny = r.holds d f := by
  have hfields : dispatchKey op d f &&& r.underAny.mask = r.underAny.pat
      ↔ opCode op &&& 0b000#3 = 0b000#3 ∧ pairCode d f &&& r.mask = r.pat := by
    rw [dispatchKey_eq]; exact append_and_append_eq_iff
  rw [Bool.eq_iff_iff, rowMatches, beq_iff_eq, hfields]
  simp [PairRow.holds]

/-- What the rows that match a key read from it. -/
def readings (rows : List KeyRow) (op : CompOp) (d f : PixelFormat) : List Instr :=
  (rows.filter (rowMatches (dispatchKey op d f))).map fun r => r.build op d f

/-- What the patterns that match a pair of formats read under an operator. -/
def pairReadings (rs : List PairRow) (op : CompOp) (d f : PixelFormat) : List Instr :=
  (rs.filter (PairRow.holds d f)).map fun r => r.build op d f

theorem readings_append (xs ys : List KeyRow) (op : CompOp) (d f : PixelFormat) :
    readings (xs ++ ys) op d f = readings xs op d f ++ readings ys op d f := by
  simp [readings]

theorem readings_flatMap {α : Type} (xs : List α) (g : α → List KeyRow) (op : CompOp) (d f : PixelFormat) :
    readings (xs.flatMap g) op d f = xs.flatMap fun x => readings (g x) op d f := by
  simp [readings, List.filter_flatMap, List.map_flatMap]

/-- The operator bits leave the rows of one operator. -/
theorem readings_under (rs : List PairRow) (op o : CompOp) (d f : PixelFormat) :
    readings (rs.map (PairRow.under o)) op d f = if op = o then pairReadings rs op d f else [] := by
  have hrow : rowMatches (dispatchKey op d f) ∘ PairRow.under o = fun r => decide (op = o) && r.holds d f :=
    funext fun r => rowMatches_under op o d f r
  rw [readings, List.filter_map, hrow]
  split
  · rename_i h; subst h; simp [pairReadings, PairRow.under]
  · rename_i h; simp [h]

theorem readings_underAny (rs : List PairRow) (op : CompOp) (d f : PixelFormat) :
    readings (rs.map PairRow.underAny) op d f = pairReadings rs op d f := by
  have hrow : rowMatches (dispatchKey op d f) ∘ PairRow.underAny = PairRow.holds d f :=
    funext fun r => rowMatches_underAny op d f r
  rw [readings, List.filter_map, hrow, List.map_map, pairReadings]
  rfl

theorem readings_opRows (rs : List PairRow) (op : CompOp) (d f : PixelFormat) :
    readings (opRows rs) op d f = pairReadings rs op d f := by
  simp only [opRows, readings_flatMap, readings_under]
  cases op <;> simp [allOps]

/-- Of all the patterns one matches a pair of formats, and it is that of the routine found by dispatch. -/
theorem pairReadings_eq (op : CompOp) (d f : PixelFormat) :
    (routinePairs.flatMap fun rs => pairReadings rs op d f) ++ pairReadings unsupportedPairs op d f
      = [keyInstr op d f] := by
  cases d <;> cases f <;> rfl

/-- Exactly one row matches a key, and it reads the key's instruction. -/
theorem readings_keyRows (op : CompOp) (d f : PixelFormat) : readings keyRows op d f = [keyInstr op d f] := by
  simp only [keyRows_eq, readings_append, readings_flatMap, readings_opRows, readings_underAny, pairReadings_eq]

/-- Settles O3: the operator bits select a row in each routine's part, the format bits select the part. -/
theorem everyKeyHasOneRow : Obligations.EveryKeyHasOneRow := by
  intro k
  obtain ⟨op, d, f, rfl⟩ := exists_dispatchKey k
  have h := congrArg List.length (readings_keyRows op d f)
  rwa [readings, List.length_map] at h

/-! ### The decoder on a key (30_encoding R104, R105) -/

theorem decodeKey_dispatchKey (op : CompOp) (d f : PixelFormat) :
    decodeKey (dispatchKey op d f) = some (keyInstr op d f) := by
  have h := congrArg List.head? (readings_keyRows op d f)
  rw [readings, List.head?_map, List.head?_filter] at h
  rw [decodeKey, opField_dispatchKey, dstField_dispatchKey, srcField_dispatchKey]
  exact h

theorem decode_keyPacket (op : CompOp) (d f : PixelFormat) : decode (keyPacket op d f) = .ok (keyInstr op d f) := by
  rw [keyPacket, decode, BitVec.extractLsb'_append_eq_left, BitVec.extractLsb'_append_eq_right, if_pos rfl,
    decodeKey_dispatchKey]

/-- A key that is an instruction has no bit above its ninth (30_encoding R104). -/
theorem keyPacket_of_decode {k : BitVec 16} {i : Instr} (h : decode (.key k) = .ok i) :
    ∃ op d f, .key k = keyPacket op d f := by
  rw [decode] at h
  split at h
  · rename_i hhigh
    obtain ⟨op, d, f, hkey⟩ := exists_dispatchKey (k.extractLsb' 0 9)
    refine ⟨op, d, f, ?_⟩
    rw [keyPacket, hkey, ← hhigh]
    exact congrArg Packet.key (BitVec.extractLsb'_append_extractLsb' (w := 7) (len := 9)).symm
  · cases h

end Sys2Proof.Machine
end

section
/-! PROOFS. The decoder and the encoder as inverses (30_encoding R97, R100, R105). -/

namespace Sys2Proof.Machine

/-! ### The formats of each row (30_encoding R105) -/

theorem eq_of_isEightBit {d : PixelFormat} (h : d.isEightBit = true) : d = .color8 ∨ d = .color8Circular := by
  cases d with
  | color8 => exact .inl rfl
  | color8Circular => exact .inr rfl
  | mono1 | palette1 | palette2 | palette4 | reserved6 | reserved7 => cases h

theorem eq_of_isPalette24 {d : PixelFormat} (h : d.isPalette24 = true) : d = .palette2 ∨ d = .palette4 := by
  cases d with
  | palette2 => exact .inl rfl
  | palette4 => exact .inr rfl
  | mono1 | palette1 | color8 | color8Circular | reserved6 | reserved7 => cases h

theorem eq_of_isReserved {d : PixelFormat} (h : d.isReserved = true) : d = .reserved6 ∨ d = .reserved7 := by
  cases d with
  | reserved6 => exact .inl rfl
  | reserved7 => exact .inr rfl
  | mono1 | palette1 | palette2 | palette4 | color8 | color8Circular => cases h

/-- The formats for which the table has a routine's rows: the patterns of `routinePairs` as formats. -/
def Routine.selects (f d : PixelFormat) : Routine → Prop
  | .m1m1 => f = .mono1 ∧ d = .mono1
  | .palm1P1 => f = .palette1 ∧ d = .mono1
  | .palm1P2 => f = .palette2 ∧ d = .mono1
  | .palc8P1 => f = .palette1 ∧ d.isEightBit = true
  | .palc8P24 => f.isPalette24 = true ∧ d.isEightBit = true
  | .c8c8 => f.isEightBit = true ∧ d.isEightBit = true
  | .m1c8 => f = .mono1 ∧ d.isEightBit = true

theorem selects_of_dispatchPair {f d : PixelFormat} {r : Routine} (h : dispatchPair f d = some r) : r.selects f d := by
  unfold dispatchPair at h
  cases d <;> cases f <;> cases h <;> exact ⟨rfl, rfl⟩

theorem dispatchPair_of_selects {f d : PixelFormat} {r : Routine} (h : r.selects f d) : dispatchPair f d = some r := by
  cases r with
  | m1m1 | palm1P1 | palm1P2 => obtain ⟨rfl, rfl⟩ := h; rfl
  | palc8P1 | m1c8 =>
    obtain ⟨rfl, hd⟩ := h
    obtain rfl | rfl := eq_of_isEightBit hd <;> rfl
  | palc8P24 =>
    obtain ⟨hf, hd⟩ := h
    obtain rfl | rfl := eq_of_isPalette24 hf <;> obtain rfl | rfl := eq_of_isEightBit hd <;> rfl
  | c8c8 =>
    obtain ⟨hf, hd⟩ := h
    obtain rfl | rfl := eq_of_isEightBit hf <;> obtain rfl | rfl := eq_of_isEightBit hd <;> rfl

/-! ### Decoding what was encoded -/

theorem decode_of_selects {f d : PixelFormat} {r : Routine} (h : r.selects f d) (op : CompOp) :
    decode (keyPacket op d f) = .ok (r.instr op d f) := by
  rw [decode_keyPacket, keyInstr, dispatchPair_of_selects h]

/-- Settles O1: a command is its own row; a row over the key is the one its operator and formats select. -/
theorem decodeUndoesEncode : Obligations.DecodeUndoesEncode := by
  intro i hwf
  cases i with
  | blit | blitAt | isNoop | fbClear | fbMarkDirty | fbGetRow | fbSizeBytes | fbHasNextRow | fbNextRow
  | fbResetDirty => rfl
  | m1m1Assign | m1m1AssignInverted | m1m1Or | m1m1And | m1m1Clear | m1m1Set | m1m1Tint | m1m1TintLuminance =>
    exact decode_of_selects (r := .m1m1) ⟨rfl, rfl⟩ _
  | palm1AssignP1 | palm1AssignInvertedP1 | palm1OrP1 | palm1AndP1 | palm1ClearP1 | palm1SetP1 | palm1TintP1
  | palm1TintLuminanceP1 => exact decode_of_selects (r := .palm1P1) ⟨rfl, rfl⟩ _
  | palm1AssignP2 | palm1AssignInvertedP2 | palm1OrP2 | palm1AndP2 | palm1ClearP2 | palm1SetP2 | palm1TintP2
  | palm1TintLuminanceP2 => exact decode_of_selects (r := .palm1P2) ⟨rfl, rfl⟩ _
  | palc8AssignP1 d | palc8AssignInvertedP1 d | palc8OrP1 d | palc8AndP1 d | palc8ClearP1 d | palc8SetP1 d
  | palc8TintP1 d | palc8TintLuminanceP1 d => exact decode_of_selects (r := .palc8P1) ⟨rfl, hwf⟩ _
  | palc8AssignP24 d f | palc8AssignInvertedP24 d f | palc8OrP24 d f | palc8AndP24 d f | palc8ClearP24 d f
  | palc8SetP24 d f | palc8TintP24 d f | palc8TintLuminanceP24 d f =>
    exact decode_of_selects (r := .palc8P24) (and_comm.1 (Bool.and_eq_true_iff.1 hwf)) _
  | c8c8Assign d f | c8c8AssignInverted d f | c8c8Or d f | c8c8And d f | c8c8Clear d f | c8c8Set d f
  | c8c8Tint d f | c8c8TintLuminance d f =>
    exact decode_of_selects (r := .c8c8) (and_comm.1 (Bool.and_eq_true_iff.1 hwf)) _
  | m1c8Assign d | m1c8AssignInverted d | m1c8Or d | m1c8And d | m1c8Clear d | m1c8Set d | m1c8Tint d
  | m1c8TintLuminance d => exact decode_of_selects (r := .m1c8) ⟨rfl, hwf⟩ _
  | unsupportedDPalette1 op f => exact decode_keyPacket op .palette1 f
  | unsupportedDPalette24 op d f => obtain rfl | rfl := eq_of_isPalette24 hwf <;> exact decode_keyPacket op _ f
  | unsupportedDReserved op d f => obtain rfl | rfl := eq_of_isReserved hwf <;> exact decode_keyPacket op _ f
  | unsupportedMono1FromP4 op => exact decode_keyPacket op .mono1 .palette4
  | unsupportedMono1FromC8OrReserved op f =>
    obtain hf | hf := Bool.or_eq_true_iff.1 hwf
    · obtain rfl | rfl := eq_of_isEightBit hf <;> exact decode_keyPacket op .mono1 _
    · obtain rfl | rfl := eq_of_isReserved hf <;> exact decode_keyPacket op .mono1 _
  | unsupportedC8FromReserved op d f =>
    obtain ⟨hd, hf⟩ := Bool.and_eq_true_iff.1 hwf
    obtain rfl | rfl := eq_of_isEightBit hd <;> obtain rfl | rfl := eq_of_isReserved hf <;>
      exact decode_keyPacket op _ _

/-! ### Encoding what was decoded -/

/-- An instruction is well formed and is encoded in this packet. -/
def EncodesTo (i : Instr) (p : Packet) : Prop := i.wellFormed = true ∧ encode i = p

theorem instr_encodesTo {f d : PixelFormat} {r : Routine} (h : r.selects f d) (op : CompOp) :
    EncodesTo (r.instr op d f) (keyPacket op d f) := by
  cases r with
  | m1m1 | palm1P1 | palm1P2 =>
    obtain ⟨rfl, rfl⟩ := h
    cases op <;> exact ⟨rfl, rfl⟩
  | palc8P1 | m1c8 =>
    obtain ⟨rfl, hd⟩ := h
    cases op <;> exact ⟨hd, rfl⟩
  | palc8P24 | c8c8 =>
    have hwf := Bool.and_eq_true_iff.2 (and_comm.1 h)
    cases op <;> exact ⟨hwf, rfl⟩

theorem unsupportedInstr_encodesTo {f d : PixelFormat} (h : dispatchPair f d = none) (op : CompOp) :
    EncodesTo (unsupportedInstr op d f) (keyPacket op d f) := by
  cases d with
  | palette1 | palette2 | palette4 | reserved6 | reserved7 => exact ⟨rfl, rfl⟩
  | mono1 | color8 | color8Circular => cases f <;> cases h <;> exact ⟨rfl, rfl⟩

theorem keyInstr_encodesTo (op : CompOp) (d f : PixelFormat) : EncodesTo (keyInstr op d f) (keyPacket op d f) := by
  unfold keyInstr
  split
  · rename_i r hr; exact instr_encodesTo (selects_of_dispatchPair hr) op
  · rename_i hr; exact unsupportedInstr_encodesTo hr op

theorem cmdRows_encodesTo : ∀ r ∈ cmdRows, EncodesTo r.instr (.cmd r.pat) := by unfold EncodesTo; decide

/-- A CMD word that is an instruction is the whole word of a row (30_encoding R97). -/
theorem cmdRow_of_decode {w : BitVec 32} {i : Instr} (h : decode (.cmd w) = .ok i) :
    ∃ r ∈ cmdRows, r.pat = w ∧ r.instr = i := by
  rw [decode, decodeCmd] at h
  cases hrow : cmdRows.find? fun r => w == r.pat with
  | none => rw [hrow] at h; cases h
  | some r =>
    rw [hrow] at h
    cases h
    have hpat : (w == r.pat) = true := List.find?_some (p := fun r : CmdRow => w == r.pat) hrow
    exact ⟨r, List.mem_of_find?_eq_some hrow, (beq_iff_eq.1 hpat).symm, rfl⟩

/-- Settles O2: a CMD word is read from a row of ten, a key as its own operator and formats. -/
theorem encodeUndoesDecode : Obligations.EncodeUndoesDecode := by
  intro p i h
  cases p with
  | cmd w =>
    obtain ⟨r, hr, rfl, rfl⟩ := cmdRow_of_decode h
    exact cmdRows_encodesTo r hr
  | key k =>
    obtain ⟨op, d, f, hk⟩ := keyPacket_of_decode h
    rw [hk, decode_keyPacket] at h
    cases h
    rw [hk]
    exact keyInstr_encodesTo op d f

/-- Settles O4: each key is given by its three fields, and the rejected packets match no row or are too wide. -/
theorem wordsWrittenOutDecode : Obligations.WordsWrittenOutDecode :=
  ⟨rfl, rfl, decode_keyPacket .or .mono1 .mono1, decode_keyPacket .set .mono1 .palette2,
    decode_keyPacket .tintLuminance .color8Circular .palette4, decode_keyPacket .tint .color8 .color8Circular,
    decode_keyPacket .and .color8Circular .mono1, decode_keyPacket .clear .palette2 .reserved7, rfl, rfl⟩

end Sys2Proof.Machine
end

section
/-! PROOFS. A step, and a BLIT, as the instruction of a packet (30_encoding R97, R104, 41_dispatch R160). -/

namespace Sys2Proof.Machine

/-! ### The instruction of a packet (20_memory R70) -/

theorem perform_packetOp (p : Packet) (s : State) : perform (packetOp p) s = runPacket p s := by
  cases p <;> rfl

theorem runPacket_of_decode {p : Packet} {i : Instr} (h : decode p = .ok i) (s : State) :
    runPacket p s = exec i s := by rw [runPacket, h]

theorem step_of_pending {s : State} {op : HostOp} {rest : List HostOp} (h : s.inbox = op :: rest) :
    step s = perform op { s with inbox := rest } := by rw [step, h]

theorem step_of_idle {s : State} (h : s.inbox = []) : step s = .next s := by rw [step, h]

/-- Settles O5: a CMD write and a routine-level call both give their packet to the decoder. -/
theorem stepRunsDecodedInstruction : Obligations.StepRunsDecodedInstruction := by
  refine ⟨fun s p i rest hdecode hinbox => ?_, fun s => step_of_idle⟩
  rw [step_of_pending hinbox, perform_packetOp, runPacket_of_decode hdecode]

/-! ### The tint where no row uses it (41_dispatch R164) -/

theorem planRows_tint (tab : List RowEntry) (a : BlitArgs) (t : Color) (rows : List Int) :
    planRows tab { a with tint := t } rows = planRows tab a rows := by
  induction rows with
  | nil => rfl
  | cons dy rest ih =>
    have hrow : rowPixels tab { a with tint := t } dy = rowPixels tab a dy := rfl
    rw [planRows, planRows, hrow, ih]

theorem blitPlan_tint (tab : List RowEntry) (a : BlitArgs) (t : Color) :
    blitPlan tab { a with tint := t } = blitPlan tab a := by
  unfold blitPlan rowLoop
  rw [planRows_tint]

theorem runBlit_tint (f : Px → Memory → Except Stop Memory) (a : BlitArgs) (t : Color) (s : State) :
    runBlit f { a with tint := t } s = runBlit f a s := by
  unfold runBlit; rw [blitPlan_tint]; rfl

theorem rejectBlit_tint (look : Px → Memory → Except Stop Unit) (a : BlitArgs) (t : Color) (s : State) :
    rejectBlit look { a with tint := t } s = rejectBlit look a s := by
  unfold rejectBlit; rw [blitPlan_tint]

theorem m1m1_tint (form : WordForm) (a : BlitArgs) (t : Color) (s : State) :
    m1m1 form { a with tint := t } s = m1m1 form a s := by
  unfold m1m1; simp only [runBlit_tint]; rfl

theorem palm1_tint (lib : ColorLib) (recolor : Color → Color) (a : BlitArgs) (t : Color) (s : State) :
    palm1 lib recolor { a with tint := t } s = palm1 lib recolor a s := by
  unfold palm1; simp only [runBlit_tint]; rfl

theorem palm1Rejected_tint (lib : ColorLib) (a : BlitArgs) (t : Color) (s : State) :
    palm1Rejected lib { a with tint := t } s = palm1Rejected lib a s := by
  unfold palm1Rejected; simp only [rejectBlit_tint]; rfl

/-! ### The row of a key as the routine of its formats (41_dispatch R160, R166) -/

/-- The row of a routine that an operator selects, run over the operands. -/
def Routine.run (lib : ColorLib) (op : CompOp) (a : BlitArgs) (s : State) : Routine → Answer
  | .m1m1 => runM1m1 a s op
  | .palm1P1 => runPalm1P1 lib a s op
  | .palm1P2 => runPalm1P2 lib a s op
  | .palc8P1 => runPalc8P1 lib a s op
  | .palc8P24 => runPalc8P24 lib a s op
  | .c8c8 => runC8c8 lib a s op
  | .m1c8 => runM1c8 a s op

theorem runRoutine_of_some {a : BlitArgs} {r : Routine} (h : dispatchPair a.src.format a.dst.format = some r)
    (lib : ColorLib) (op : CompOp) (s : State) : runRoutine lib op a s = r.run lib op a s := by
  unfold runRoutine
  rw [h]
  cases r <;> rfl

theorem runRoutine_of_none {a : BlitArgs} (h : dispatchPair a.src.format a.dst.format = none)
    (lib : ColorLib) (op : CompOp) (s : State) : runRoutine lib op a s = unsupportedPair s := by
  unfold runRoutine
  rw [h]

/-- The two rows of M1M1 without a form apart, a row called by key runs its routine's row (42_mono1_to_mono1 R189). -/
theorem exec_instr {f d : PixelFormat} {r : Routine} {op : CompOp} (h : r.selects f d)
    (ht : d = .mono1 → op ≠ .tint ∧ op ≠ .tintLuminance) (s : State) :
    exec (r.instr op d f) s = whenAccepting s fun s => r.run engineLib op (rowArgs s d f) s := by
  cases r with
  | m1m1 =>
    obtain ⟨rfl, rfl⟩ := h
    cases op with
    | assign | assignInverted | or | and | clear | set => rfl
    | tint => exact absurd rfl (ht rfl).1
    | tintLuminance => exact absurd rfl (ht rfl).2
  | palm1P1 | palm1P2 =>
    obtain ⟨rfl, rfl⟩ := h
    cases op <;> rfl
  | palc8P1 | m1c8 =>
    obtain ⟨rfl, _⟩ := h
    cases op <;> rfl
  | palc8P24 | c8c8 => cases op <;> rfl

theorem exec_unsupportedInstr (op : CompOp) (d f : PixelFormat) (s : State) :
    exec (unsupportedInstr op d f) s = whenAccepting s unsupportedPair := by
  cases d with
  | mono1 => cases f <;> rfl
  | palette1 | palette2 | palette4 | color8 | color8Circular | reserved6 | reserved7 => rfl

theorem exec_keyInstr {op : CompOp} {d f : PixelFormat} (ht : d = .mono1 → op ≠ .tint ∧ op ≠ .tintLuminance)
    (s : State) :
    exec (keyInstr op d f) s = whenAccepting s fun s => runRoutine engineLib op (rowArgs s d f) s := by
  unfold keyInstr
  split
  · rename_i r hr
    rw [exec_instr (selects_of_dispatchPair hr) ht]
    exact congrArg (whenAccepting s) (funext fun s => (runRoutine_of_some (a := rowArgs s d f) hr _ op s).symm)
  · rename_i hr
    rw [exec_unsupportedInstr]
    exact congrArg (whenAccepting s) (funext fun s => (runRoutine_of_none (a := rowArgs s d f) hr _ op s).symm)

/-! ### BLIT as the row of its normalised key (41_dispatch R160, R164) -/

/-- Onto Mono1 only the two tint operators look at the tint. -/
theorem run_tint_of_mono1 {r : Routine} {f : PixelFormat} {op : CompOp} (h : r.selects f .mono1)
    (ht : op ≠ .tint ∧ op ≠ .tintLuminance) (lib : ColorLib) (a : BlitArgs) (t : Color) (s : State) :
    r.run lib op { a with tint := t } s = r.run lib op a s := by
  have hpalm1 : runPalm1P1 lib { a with tint := t } s op = runPalm1P1 lib a s op := by
    cases op with
    | assign | set => exact palm1_tint lib _ a t s
    | assignInverted | or | and | clear => exact palm1Rejected_tint lib a t s
    | tint => exact absurd rfl ht.1
    | tintLuminance => exact absurd rfl ht.2
  cases r with
  | m1m1 =>
    obtain ⟨form, _, _, hform⟩ := runM1m1_form ht.1 ht.2
    rw [Routine.run, Routine.run, hform, hform, m1m1_tint]
  | palm1P1 => exact hpalm1
  | palm1P2 => rw [Routine.run, Routine.run, runPalm1P2_eq, runPalm1P2_eq, hpalm1]
  | palc8P1 | palc8P24 | c8c8 | m1c8 => cases h.2

/-- The tint that the normalisation leaves changes nothing for the routine: it is the operand's own, or no row that a
Mono1 destination can then reach uses it (41_dispatch R164, R165). -/
theorem runRoutine_of_normalise {lib : ColorLib} {a : BlitArgs} {op op' : CompOp} {t : Color}
    (h : normalise lib a.dst.format op a.tint = some (op', t)) (s : State) :
    runRoutine lib op' { a with tint := t } s = runRoutine lib op' a s := by
  by_cases hd : a.dst.format = .mono1
  · have ht := not_tint_of_normalise (hd ▸ h)
    cases hr : dispatchPair a.src.format a.dst.format with
    | none => rw [runRoutine_of_none (a := a) hr, runRoutine_of_none (a := { a with tint := t }) hr]
    | some r =>
      rw [runRoutine_of_some (a := a) hr, runRoutine_of_some (a := { a with tint := t }) hr]
      exact run_tint_of_mono1 (hd ▸ selects_of_dispatchPair hr) ht lib a t s
  · have htint : t = a.tint := by
      simp only [normalise, hd, false_and, if_false] at h
      cases h; rfl
    rw [htint]

/-- Settles O19: the key's formats are the operands' own, and in the halt both execute nothing. -/
theorem blitRunsTheRowOfItsKey : Obligations.BlitRunsTheRowOfItsKey := by
  intro s op t i hnoop hnorm hdecode
  rw [decode_keyPacket] at hdecode
  cases hdecode
  rw [exec_keyInstr fun hd => not_tint_of_normalise (hd ▸ hnorm)]
  cases hacc : accepting s with
  | false => rw [exec_blit_eq (.inl ⟨rfl, rfl⟩), whenAccepting_of_halted hacc, whenAccepting_of_halted hacc]
  | true =>
    rw [whenAccepting_of_accepting hacc, (exec_blit_eq_runRoutine hacc (.inl ⟨rfl, rfl⟩) hnoop hnorm).1]
    exact runRoutine_of_normalise (a := blitArgs s) hnorm s

end Sys2Proof.Machine
end

section
/-! PROOFS. The pixels a BLIT visits, as a set and in order, and the row at which a walk stops (40_primitives R142 to
R148, 60_exceptions R320). -/

namespace Sys2Proof.Machine

theorem inRect_iff {r : Rect} {x y : Int} :
    inRect r x y = true ↔ (r.x ≤ x ∧ x < maxX r) ∧ r.y ≤ y ∧ y < maxY r := by
  simp only [inRect, Bool.and_eq_true, decide_eq_true_eq, and_assoc]

theorem not_isEmptyRect_of_inRect {r : Rect} {x y : Int} (h : inRect r x y = true) : isEmptyRect r = false := by
  obtain ⟨⟨_, _⟩, _, _⟩ := inRect_iff.1 h
  simp only [maxX, maxY] at *
  simp only [isEmptyRect, Bool.or_eq_false_iff, decide_eq_false_iff_not]
  omega

/-! ### The pixels of one row (40_primitives R143 to R147) -/

theorem pixelAt_eq_some {a : BlitArgs} {y x : Int} {d : DstRow} {r : Option RowInfo} {p : Px} :
    pixelAt a y d r x = some p ↔ sourceStored a.src.format r (srcX a x) = true
      ∧ p = ⟨x, y, srcX a x, srcY a y, d.dataPtr, (r.map RowInfo.dataPtr).getD 0⟩ := by
  simp only [pixelAt, Option.ite_none_right_eq_some, Option.some.injEq, eq_comm (a := p)]

section
variable {tab : List RowEntry} {a : BlitArgs} {x y : Int} {px : List Px}

/-- A row that runs visits exactly the columns of the rectangle in its window, but for those a circular source does not
store (40_primitives R143, R147). -/
theorem exists_mem_rowPixels_iff (h : rowPixels tab a y = .ok px)
    (hf : a.dst.format = .mono1 ∨ a.dst.format.isEightBit = true) :
    (∃ p ∈ px, p.dx = x) ↔ (a.rect.x ≤ x ∧ x < maxX a.rect ∧ inWindow tab a.dst x y = true)
      ∧ (a.src.format = .color8Circular → inWindow tab a.src (srcX a x) (srcY a y) = true) := by
  obtain ⟨d, r, hd, hr, hrow⟩ := rowPixels_eq_ok h
  obtain ⟨_, _, hcol, _, _⟩ := dstRow_eq_ok hd hf
  rw [maxX, ← hcol x]
  obtain ⟨hempty, rfl⟩ | ⟨_, hcontract, rfl⟩ := hrow
  · simp only [List.not_mem_nil, false_and, exists_false, false_iff]
    omega
  · obtain ⟨_, ⟨_, _, hoff⟩, _⟩ := rowContract_eq_ok hcontract
    have hstored : sourceStored a.src.format r (srcX a x) = true
        ↔ (a.src.format = .color8Circular → inWindow tab a.src (srcX a x) (srcY a y) = true) := by
      rw [(srcRow_eq_ok hr hoff).2]
      simp [← imp_iff_not_or]
    rw [← hstored, ← mem_intRange]
    simp only [List.mem_filterMap, pixelAt_eq_some]
    constructor
    · rintro ⟨p, ⟨x', hx', hs, rfl⟩, rfl⟩
      exact ⟨hx', hs⟩
    · rintro ⟨hx, hs⟩
      exact ⟨_, ⟨x, hx, hs, rfl⟩, rfl⟩

/-- Where a pixel of a row reads and writes (40_primitives R138, R145, R146). -/
theorem place_of_mem_rowPixels (h : rowPixels tab a y = .ok px) {p : Px} (hp : p ∈ px)
    (hf : a.dst.format = .mono1 ∨ a.dst.format.isEightBit = true) :
    p.dy = y ∧ p.sx = srcX a p.dx ∧ p.sy = srcY a p.dy
      ∧ (a.dst.format ≠ .mono1 → p.dstPtr + p.dx = colorByte tab a.dst p.dx p.dy)
      ∧ (a.src.format.isEightBit = true → p.srcPtr + p.sx = colorByte tab a.src p.sx p.sy) := by
  obtain ⟨d, r, hd, hr, hcontract, _, _, _, he⟩ := mem_rowPixels h hp
  obtain ⟨_, _, _, hdst, _⟩ := dstRow_eq_ok hd hf
  obtain ⟨_, ⟨_, _, hoff⟩, _⟩ := rowContract_eq_ok hcontract
  rw [he]
  exact ⟨rfl, rfl, rfl, fun hm => hdst hm _, fun h8 => (srcRow_eq_ok hr hoff).1 h8 _⟩

theorem rowPixels_pairwise (h : rowPixels tab a y = .ok px) : px.Pairwise fun p q => p.dx < q.dx := by
  obtain ⟨d, r, _, _, ⟨_, rfl⟩ | ⟨_, _, rfl⟩⟩ := rowPixels_eq_ok h
  · exact .nil
  · refine (intRange_pairwise d.lo d.hi).filterMap _ fun x x' hlt p hp q hq => ?_
    obtain ⟨_, rfl⟩ := pixelAt_eq_some.1 hp
    obtain ⟨_, rfl⟩ := pixelAt_eq_some.1 hq
    exact hlt

end

/-! ### The pixels of a walk (00_scope R15, 60_exceptions R320) -/

section
variable {tab : List RowEntry} {a : BlitArgs}

/-- A row that does not stop the walk: its descriptors are found and, if it visits a column, its obligations hold. -/
def rowRuns (tab : List RowEntry) (a : BlitArgs) (y : Int) : Prop := ∃ px, rowPixels tab a y = .ok px

/-- A walk over rising rows visits the pixels of the rows that it reaches: no row above them stops. -/
theorem mem_planRows_iff {rows : List Int} (hr : rows.Pairwise (· < ·)) {p : Px} :
    p ∈ (planRows tab a rows).pixels
      ↔ ∃ y ∈ rows, (∃ px, rowPixels tab a y = .ok px ∧ p ∈ px) ∧ ∀ z ∈ rows, z < y → rowRuns tab a z := by
  induction rows with
  | nil => simp [planRows]
  | cons y rest ih =>
    obtain ⟨hlt, hrest⟩ := List.pairwise_cons.1 hr
    have hfirst : ∀ z ∈ y :: rest, ¬ z < y := by
      rintro z (_ | ⟨_, hz⟩)
      · exact lt_irrefl y
      · exact (hlt z hz).not_gt
    cases hy : rowPixels tab a y with
    | error e =>
      simp only [planRows, hy, List.not_mem_nil, false_iff]
      rintro ⟨y', hy', ⟨px, hpx, _⟩, habove⟩
      obtain rfl | hmem := List.mem_cons.1 hy'
      · rw [hy] at hpx; cases hpx
      · obtain ⟨px', hpx'⟩ := habove y (List.mem_cons_self ..) (hlt y' hmem)
        rw [hy] at hpx'; cases hpx'
    | ok px =>
      simp only [planRows, hy, List.mem_append, ih hrest, List.mem_cons, exists_eq_or_imp]
      refine or_congr ?_ (exists_congr fun y' => and_congr_right fun hy' => and_congr_right fun _ => ?_)
      · constructor
        · exact fun hp => ⟨⟨px, rfl, hp⟩, fun z hz hzy => absurd hzy (hfirst z (List.mem_cons.2 hz))⟩
        · rintro ⟨⟨px', heq, hp⟩, _⟩
          cases heq; exact hp
      · rw [forall_eq_or_imp]
        exact (and_iff_right fun _ => ⟨px, hy⟩).symm

/-- The pixels of rising rows follow one another row by row and column by column (00_scope R15). -/
theorem planRows_pairwise {rows : List Int} (hr : rows.Pairwise (· < ·))
    (hf : a.dst.format = .mono1 ∨ a.dst.format.isEightBit = true) :
    (planRows tab a rows).pixels.Pairwise fun p q => p.dy < q.dy ∨ (p.dy = q.dy ∧ p.dx < q.dx) := by
  induction rows with
  | nil => exact .nil
  | cons y rest ih =>
    obtain ⟨hlt, hrest⟩ := List.pairwise_cons.1 hr
    unfold planRows
    split
    · exact .nil
    · rename_i px hpx
      have hdy : ∀ p ∈ px, p.dy = y := fun p hp => (place_of_mem_rowPixels hpx hp hf).1
      refine List.pairwise_append.2 ⟨?_, ih hrest, fun p hp q hq => .inl ?_⟩
      · exact (rowPixels_pairwise hpx).imp_of_mem fun hp hq hx => .inr ⟨(hdy _ hp).trans (hdy _ hq).symm, hx⟩
      · obtain ⟨y', hy', qx, hqx, hq'⟩ := mem_planRows hq
        rw [hdy p hp, (place_of_mem_rowPixels hqx hq' hf).1]
        exact hlt y' hy'

theorem blitPlan_pixels : (blitPlan tab a).pixels = (planRows tab a (intRange a.rect.y (maxY a.rect))).pixels :=
  blitPlan_pixels_eq

/-- A position is visited exactly when it is in the rectangle, in the windows of its two rows, and no row of the
rectangle down to its own stops the walk. -/
theorem visits_iff (hf : a.dst.format = .mono1 ∨ a.dst.format.isEightBit = true) (x y : Int) :
    (∃ p ∈ (blitPlan tab a).pixels, p.dx = x ∧ p.dy = y) ↔ inRect a.rect x y = true
      ∧ inWindow tab a.dst x y = true
      ∧ (a.src.format = .color8Circular → inWindow tab a.src (srcX a x) (srcY a y) = true)
      ∧ ∀ z, a.rect.y ≤ z → z ≤ y → rowRuns tab a z := by
  simp only [blitPlan_pixels, mem_planRows_iff (intRange_pairwise ..), mem_intRange, inRect_iff]
  constructor
  · rintro ⟨p, ⟨y', hy', ⟨px, hpx, hp⟩, habove⟩, rfl, rfl⟩
    obtain rfl := (place_of_mem_rowPixels hpx hp hf).1
    obtain ⟨⟨hx, hx', hdst⟩, hsrc⟩ := (exists_mem_rowPixels_iff hpx hf).1 ⟨p, hp, rfl⟩
    refine ⟨⟨⟨hx, hx'⟩, hy'⟩, hdst, hsrc, fun z hz hzy => ?_⟩
    obtain hlt | rfl := hzy.lt_or_eq
    · exact habove z ⟨hz, by omega⟩ hlt
    · exact ⟨px, hpx⟩
  · rintro ⟨⟨⟨hx, hx'⟩, hy, hy'⟩, hdst, hsrc, hruns⟩
    obtain ⟨px, hpx⟩ := hruns y hy le_rfl
    obtain ⟨p, hp, rfl⟩ := (exists_mem_rowPixels_iff hpx hf).2 ⟨⟨hx, hx', hdst⟩, hsrc⟩
    exact ⟨p, ⟨y, ⟨hy, hy'⟩, ⟨px, hpx, hp⟩, fun z hz hzy => hruns z hz.1 hzy.le⟩, rfl,
      (place_of_mem_rowPixels hpx hp hf).1⟩

/-- How a plan ends without a stop: the rectangle is empty, or every row of it runs (41_dispatch R161). -/
theorem blitPlan_stop_eq_none : (blitPlan tab a).stop = none
    ↔ isEmptyRect a.rect = true ∨ ∀ y, a.rect.y ≤ y → y < maxY a.rect → rowRuns tab a y := by
  unfold blitPlan
  split
  · simp [*]
  · rw [rowLoop, planRows_stop_none]
    simp only [mem_intRange, and_imp, *, Bool.false_eq_true, false_or]
    rfl

/-- Settles O27: no row stops the walk, so each row of the rectangle is visited in its windows. -/
theorem visitedPixelsAreTheWindowedRectangle : Obligations.VisitedPixelsAreTheWindowedRectangle := by
  intro tab a hstop hf
  refine ⟨fun x y => ?_, fun p hp => ?_, ?_⟩
  · rw [visits_iff hf]
    refine and_congr_right fun hin => and_congr_right fun _ => and_iff_left fun z hz hzy => ?_
    obtain hempty | hruns := blitPlan_stop_eq_none.1 hstop
    · rw [not_isEmptyRect_of_inRect hin] at hempty; cases hempty
    · exact hruns z hz (hzy.trans_lt (inRect_iff.1 hin).2.2)
  · rw [blitPlan_pixels] at hp
    obtain ⟨y, _, px, hpx, hp⟩ := mem_planRows hp
    obtain ⟨_, hsx, hsy, hdst, hsrc⟩ := place_of_mem_rowPixels hpx hp hf
    exact ⟨hsx, hsy, hdst, hsrc⟩
  · rw [blitPlan_pixels]
    exact planRows_pairwise (intRange_pairwise ..) hf

/-! ### The row that stops a walk under the caller's obligations (40_primitives R142, 70_reset R346) -/

theorem rowKnown_of_not_circular {b : Bitmap} (h : b.format ≠ .color8Circular) (y : Int) :
    rowKnown tab b y = true := by simp [rowKnown, h]

theorem rowKnown_of_circular {b : Bitmap} (h : b.format = .color8Circular) {y : Int} :
    rowKnown tab b y = true ↔ 0 ≤ y ∧ y < tab.length := by simp [rowKnown, h]

/-- A row is known exactly when it has a descriptor (40_primitives R141, R142). -/
theorem rowKnown_eq_isSome (b : Bitmap) (y : Int) : rowKnown tab b y = (rowInfo tab b y).isSome := by
  rw [Bool.eq_iff_iff]
  unfold rowInfo
  split
  · rename_i hc
    rw [rowKnown_of_circular hc]
    split <;> simp <;> omega
  · rename_i hc
    simp [rowKnown_of_not_circular hc]

theorem dstRow_ok_or_error (tab : List RowEntry) (a : BlitArgs) (y : Int) :
    (rowKnown tab a.dst y = true ∧ ∃ d, dstRow tab a y = .ok d)
      ∨ (rowKnown tab a.dst y = false ∧ dstRow tab a y = .error (.fatal .rowIndexOutOfBounds)) := by
  unfold dstRow
  split
  · rename_i hm
    exact .inl ⟨rowKnown_of_not_circular (by simp [hm]) y, _, rfl⟩
  · split
    · rename_i hr
      exact .inr ⟨by rw [rowKnown_eq_isSome, hr]; rfl, rfl⟩
    · rename_i r hr
      exact .inl ⟨by rw [rowKnown_eq_isSome, hr]; rfl, _, rfl⟩

/-- With the offset inside the source bounds, the source row asked for is the tiled one (40_primitives R145). -/
theorem srcRow_ok_or_error (tab : List RowEntry) {a : BlitArgs} (hoff : 0 ≤ a.off.y ∧ a.off.y < a.src.bounds.h)
    (y : Int) (visits : Bool) :
    (rowKnown tab a.src (srcY a y) = true ∧ ∃ r, srcRow tab a y visits = .ok r)
      ∨ (rowKnown tab a.src (srcY a y) = false
        ∧ srcRow tab a y visits = .error (.fatal .rowIndexOutOfBounds)) := by
  unfold srcRow
  split
  · rw [if_neg (by simp [offsetInside, hoff]), descriptorRow_eq hoff]
    split
    · rename_i hr
      exact .inr ⟨by rw [rowKnown_eq_isSome, hr]; rfl, rfl⟩
    · rename_i r hr
      exact .inl ⟨by rw [rowKnown_eq_isSome, hr]; rfl, _, rfl⟩
  · rename_i hc
    refine .inl ⟨rowKnown_of_not_circular hc _, ?_⟩
    split <;> exact ⟨_, rfl⟩

theorem contract_iff : contract a = true ↔
    (0 ≤ a.rect.x ∧ 0 ≤ a.rect.y ∧ 0 ≤ a.src.bounds.x ∧ 0 ≤ a.src.bounds.y ∧ 0 ≤ a.dst.bounds.x ∧ 0 ≤ a.dst.bounds.y
        ∧ 0 ≤ a.dst.bounds.w ∧ 0 ≤ a.dst.bounds.h)
      ∧ (a.dst.bounds.x ≤ a.rect.x ∧ maxX a.rect ≤ maxX a.dst.bounds ∧ a.dst.bounds.y ≤ a.rect.y
        ∧ maxY a.rect ≤ maxY a.dst.bounds)
      ∧ 0 ≤ a.off.x ∧ a.off.x < a.src.bounds.w ∧ 0 ≤ a.off.y ∧ a.off.y < a.src.bounds.h := by
  simp only [contract, Bool.and_eq_true, decide_eq_true_eq, and_assoc]

/-- The caller's obligations on the rectangle are those on each part of its rows (70_reset R346, 41_dispatch R167). -/
theorem rowContract_of_contract (h : contract a = true) {y lo hi : Int} (hy : a.rect.y ≤ y) (hy' : y < maxY a.rect)
    (hlo : a.rect.x ≤ lo) (hhi : hi ≤ maxX a.rect) : rowContract a y lo hi = .ok () := by
  obtain ⟨hneg, hin, hoff⟩ := contract_iff.1 h
  have hn : negativeOperands a = false := by simp [negativeOperands]; omega
  have hm : offsetMisses a = false := by simp [offsetMisses, hoff]
  rw [rowContract_eq, hn, hm, if_neg (by simp), if_neg (by simp), if_pos (by omega)]

section
variable (h : contract a = true) (hf : a.dst.format = .mono1 ∨ a.dst.format.isEightBit = true)
include h hf

/-- Under the contract a row of the rectangle stops for want of a descriptor alone. -/
theorem stop_of_rowPixels_eq_error {y : Int} {x : RowStop} (hy : a.rect.y ≤ y) (hy' : y < maxY a.rect)
    (hx : rowPixels tab a y = .error x) :
    x = .fatal .rowIndexOutOfBounds ∧ ¬ (rowKnown tab a.dst y = true ∧ rowKnown tab a.src (srcY a y) = true) := by
  obtain ⟨_, _, _, _, hoff⟩ := contract_iff.1 h
  obtain hd | ⟨d, hd, hrow⟩ := rowPixels_eq_error hx
  · obtain ⟨_, _, hd'⟩ | ⟨hk, hd'⟩ := dstRow_ok_or_error tab a y <;> rw [hd] at hd' <;> cases hd'
    exact ⟨rfl, by simp [hk]⟩
  obtain hs | ⟨_, _, hc⟩ := hrow
  · obtain ⟨_, _, hs'⟩ | ⟨hk, hs'⟩ := srcRow_ok_or_error tab hoff y (decide (d.lo < d.hi)) <;>
      rw [hs] at hs' <;> cases hs'
    exact ⟨rfl, by simp [hk]⟩
  · obtain ⟨hlo, hhi, _⟩ := dstRow_eq_ok hd hf
    rw [rowContract_of_contract h hy hy' hlo hhi] at hc
    cases hc

theorem rowRuns_iff_known {y : Int} (hy : a.rect.y ≤ y) (hy' : y < maxY a.rect) :
    rowRuns tab a y ↔ rowKnown tab a.dst y = true ∧ rowKnown tab a.src (srcY a y) = true := by
  obtain ⟨_, _, _, _, hoff⟩ := contract_iff.1 h
  constructor
  · rintro ⟨px, hpx⟩
    obtain ⟨d, r, hd, hr, _⟩ := rowPixels_eq_ok hpx
    obtain ⟨hkd, _⟩ | ⟨_, hd'⟩ := dstRow_ok_or_error tab a y
    · obtain ⟨hks, _⟩ | ⟨_, hr'⟩ := srcRow_ok_or_error tab hoff y (decide (d.lo < d.hi))
      · exact ⟨hkd, hks⟩
      · rw [hr] at hr'; cases hr'
    · rw [hd] at hd'; cases hd'
  · intro hk
    cases hx : rowPixels tab a y with
    | ok px => exact ⟨px, hx⟩
    | error x => exact absurd hk (stop_of_rowPixels_eq_error h hf hy hy' hx).2

/-- Under the contract a walk that stops stops on a row index. -/
theorem stop_of_contract :
    (blitPlan tab a).stop = none ∨ (blitPlan tab a).stop = some (.fatal .rowIndexOutOfBounds) := by
  cases hs : (blitPlan tab a).stop with
  | none => exact .inl rfl
  | some x =>
    right
    obtain ⟨_, hp⟩ | ⟨_, _, hp⟩ := blitPlan_eq (tab := tab) (a := a)
    · rw [hp] at hs; cases hs
    · rw [hp] at hs
      obtain ⟨above, y, below, hrows, _, hx, _⟩ := planRows_stop_some hs
      obtain ⟨hy, hy'⟩ := mem_intRange.1 (hrows ▸ List.mem_append_right above (List.mem_cons_self ..))
      rw [(stop_of_rowPixels_eq_error h hf hy hy' hx).1]

theorem stop_iff_unknown_row : (blitPlan tab a).stop = some (.fatal .rowIndexOutOfBounds)
    ↔ 0 < a.rect.w ∧ ∃ y, a.rect.y ≤ y ∧ y < maxY a.rect
      ∧ ¬ (rowKnown tab a.dst y = true ∧ rowKnown tab a.src (srcY a y) = true) := by
  have hstop : (blitPlan tab a).stop = some (.fatal .rowIndexOutOfBounds) ↔ ¬ (blitPlan tab a).stop = none := by
    obtain hs | hs := stop_of_contract h hf (tab := tab) <;> simp [hs]
  rw [hstop, blitPlan_stop_eq_none]
  simp only [isEmptyRect, Bool.or_eq_true, decide_eq_true_eq]
  constructor
  · intro hno
    push Not at hno
    obtain ⟨⟨hw, _⟩, y, hy, hy', hr⟩ := hno
    exact ⟨hw, y, hy, hy', mt (rowRuns_iff_known h hf hy hy').2 hr⟩
  · rintro ⟨hw, y, hy, hy', hk⟩ (hempty | hruns)
    · unfold maxY at hy'; omega
    · exact hk ((rowRuns_iff_known h hf hy hy').1 (hruns y hy hy'))

end

/-- Settles O29: under the contract a row runs exactly when both its descriptors are in the table. -/
theorem circularRowOutsideTheTableStopsTheWalk : Obligations.CircularRowOutsideTheTableStopsTheWalk := by
  intro tab a h hf known
  obtain ⟨hneg, _, _⟩ := contract_iff.1 h
  refine ⟨stop_iff_unknown_row h hf, fun hd hs => ?_, fun x y => ?_⟩
  · rw [stop_iff_unknown_row h hf]
    simp only [rowKnown_of_not_circular hs, rowKnown_of_circular hd, and_true]
    refine and_congr_right fun _ => ⟨?_, fun ⟨hh, hlen⟩ => ⟨maxY a.rect - 1, ?_⟩⟩
    · rintro ⟨y, hy, hy', hk⟩
      unfold maxY at *
      omega
    · unfold maxY at *
      omega
  · rw [visits_iff hf]
    refine and_congr_right fun hin => and_congr_right fun _ => and_congr_right fun _ => ?_
    have hy := (inRect_iff.1 hin).2.2
    exact forall_congr' fun z => forall_congr' fun hz => forall_congr' fun hzy =>
      rowRuns_iff_known h hf hz (hzy.trans_lt hy)

end

end Sys2Proof.Machine
end

section
/-! PROOFS. What the rows of the 8-bit routines paint above a row that halts the walk (40_primitives R142, 60_exceptions
R318, R323). -/

namespace Sys2Proof.Machine

/-! ### The paint of a row, by operator (44_palette_to_color8 R222, 45_color8_to_color8 R241, 46_mono1_to_color8
R262) -/

theorem runPalc8P1_combines {op : CompOp} (h : permittedFromPalette op = true) (lib : ColorLib) (a : BlitArgs)
    (s : State) :
    ∃ combine, paintsAs combine (combinedByte lib op a.tint) ∧ runPalc8P1 lib a s op = palc8 combine a s := by
  cases op with
  | assign => exact ⟨_, combineCopy_paints, rfl⟩
  | set | tint | tintLuminance => exact ⟨_, combineBlend_paints lib _, rfl⟩
  | assignInverted | or | and | clear => cases h

theorem runC8c8_combines (op : CompOp) (lib : ColorLib) (a : BlitArgs) (s : State) :
    ∃ combine, paintsAs combine (combinedByte lib op a.tint) ∧ runC8c8 lib a s op = c8c8 combine a s := by
  cases op with
  | assign | assignInverted | or | and | clear => exact ⟨_, combineCopy_paints, rfl⟩
  | set | tint | tintLuminance => exact ⟨_, combineBlend_paints lib _, rfl⟩

theorem runM1c8_expands (op : CompOp) (a : BlitArgs) (s : State) :
    ∃ expand : Expand, (∀ bit d, (expand bit).getD d = expandedByte op a.tint bit d)
      ∧ runM1c8 a s op = m1c8 expand a s := by
  cases op <;> exact ⟨_, fun bit _ => by cases bit <;> rfl, rfl⟩

/-! ### The halt on a row index (60_exceptions R318, R319) -/

section
variable {s : State} {d f : PixelFormat}

/-- A loop that paints its bytes ends, off the table, in the halt with the bytes painted (60_exceptions R323). -/
theorem haltsAfterBytes_of_runBlit {i : Instr} {a : BlitArgs} {paint : Px → Color → Color}
    {pixel : Px → Memory → Except Stop Memory} (hoff : runsOffTable s a = true) (hexec : exec i s = runBlit pixel a s)
    (hpaint : ∃ m, runPixels pixel (visited s a) s.mem = .ok m ∧ bytesPainted a paint s m) :
    haltsAfterBytes i a paint s := by
  obtain ⟨m, hm, hbytes⟩ := hpaint
  exact ⟨m, hexec.trans (runBlit_offTable hoff hm), hbytes⟩

/-- A row over the dispatch key with an 8-bit destination is its routine's row, where commands are executed. -/
theorem exec_instr_of_accepting (hacc : accepting s = true) (hd : d.isEightBit = true) {r : Routine}
    (hr : r.selects f d) (op : CompOp) : exec (r.instr op d f) s = r.run engineLib op (rowArgs s d f) s :=
  (exec_instr hr (fun h => absurd h (ne_mono1_of_isEightBit hd)) s).trans (whenAccepting_of_accepting hacc _)

theorem palette_present (h : s.srcPal ≠ 0) (d f : PixelFormat) : (rowArgs s d f).src.palette ≠ 0 := by
  simpa [rowArgs, blitArgs, srcBitmap, BitVec.toNat_eq] using h

section
variable (hacc : accepting s = true) (hd : d.isEightBit = true) (hoff : runsOffTable s (rowArgs s d f) = true)
include hacc hd hoff

theorem palc8_haltsAfterBytes {r : Routine} (hr : r = .palc8P1 ∨ r = .palc8P24) (hsel : r.selects f d)
    (hpal : s.srcPal ≠ 0) (op : CompOp) (hop : permittedFromPalette op = true) :
    haltsAfterBytes (r.instr op d f) (rowArgs s d f)
      (fun p v => combinedByte engineLib op (tintField s.ctrl) (palettePixel s (rowArgs s d f).src p.sx p.sy) v) s := by
  obtain ⟨combine, hpaints, hrow⟩ := runPalc8P1_combines hop engineLib (rowArgs s d f) s
  have hf : isPaletteFormat f = true := by
    obtain rfl | rfl := hr
    · rw [hsel.1]; rfl
    · simp [isPaletteFormat, hsel.1]
  have hrun : r.run engineLib op (rowArgs s d f) s = runPalc8P1 engineLib (rowArgs s d f) s op := by
    obtain rfl | rfl := hr
    · rfl
    · exact runPalc8P24_eq engineLib _ s op
  refine haltsAfterBytes_of_runBlit hoff ?_ (palc8_painted hpaints (runsOffTable_iff.1 hoff).2 hd hf)
  rw [exec_instr_of_accepting hacc hd hsel, hrun, hrow]
  exact withPalette_of_present (palette_present hpal d f) s _

theorem c8c8_haltsAfterBytes (hf : f.isEightBit = true) (op : CompOp) :
    haltsAfterBytes (Routine.c8c8.instr op d f) (rowArgs s d f)
      (fun p v => combinedByte engineLib op (tintField s.ctrl) (colorPixel s (rowArgs s d f).src p.sx p.sy) v) s := by
  obtain ⟨combine, hpaints, hrow⟩ := runC8c8_combines op engineLib (rowArgs s d f) s
  refine haltsAfterBytes_of_runBlit hoff ?_ (c8c8_painted hpaints (runsOffTable_iff.1 hoff).2 hd hf)
  exact (exec_instr_of_accepting hacc hd (r := .c8c8) ⟨hf, hd⟩ op).trans hrow

end

theorem m1c8_haltsAfterBytes (hacc : accepting s = true) (hd : d.isEightBit = true)
    (hoff : runsOffTable s (rowArgs s d .mono1) = true) (hal : isAligned (rowArgs s d .mono1).src = true)
    (op : CompOp) :
    haltsAfterBytes (Routine.m1c8.instr op d .mono1) (rowArgs s d .mono1)
      (fun p v => expandedByte op (tintField s.ctrl) (monoPixel s (rowArgs s d .mono1).src p.sx p.sy) v) s := by
  obtain ⟨expand, hexpand, hrow⟩ := runM1c8_expands op (rowArgs s d .mono1) s
  refine haltsAfterBytes_of_runBlit hoff ?_
    (m1c8_painted (expandedByte op (tintField s.ctrl)) (runsOffTable_iff.1 hoff).2 hd rfl hexpand)
  rw [exec_instr_of_accepting hacc hd (r := .m1c8) ⟨rfl, hd⟩]
  exact hrow.trans (withAlignment_of_aligned hal s _)

end

/-- Settles O40: the rows of each routine are its loop, which paints before it stops. -/
theorem rowIndexHaltKeepsTheRowsAbove : Obligations.RowIndexHaltKeepsTheRowsAbove := by
  intro s d hd hacc
  simp only [List.forall_mem_cons, List.not_mem_nil, false_imp_iff, implies_true, and_true]
  refine ⟨fun f hf hpal hoff => ?_, fun f hf hoff => ?_, fun hal hoff => ?_⟩
  · by_cases hp1 : f = .palette1
    · simp only [if_pos hp1]
      have halts := palc8_haltsAfterBytes hacc hd hoff (.inl rfl) ⟨hp1, hd⟩ hpal
      exact ⟨halts .assign rfl, halts .set rfl, halts .tint rfl, halts .tintLuminance rfl⟩
    · simp only [if_neg hp1]
      have hp24 : f.isPalette24 = true := by simpa [isPaletteFormat, hp1] using hf
      have halts := palc8_haltsAfterBytes hacc hd hoff (.inr rfl) ⟨hp24, hd⟩ hpal
      exact ⟨halts .assign rfl, halts .set rfl, halts .tint rfl, halts .tintLuminance rfl⟩
  · have halts := c8c8_haltsAfterBytes hacc hd hoff hf
    exact ⟨halts .assign, halts .assignInverted, halts .or, halts .and, halts .clear, halts .set, halts .tint,
      halts .tintLuminance⟩
  · have halts := m1c8_haltsAfterBytes hacc hd hoff hal
    exact ⟨halts .assign, halts .assignInverted, halts .or, halts .and, halts .clear, halts .set, halts .tint,
      halts .tintLuminance⟩

end Sys2Proof.Machine
end

section
/-! PROOFS. A source of one pixel fills the rectangle (40_primitives R145, R146, R149). -/

namespace Sys2Proof.Machine

/-! ### Pixels that all paint one value -/

/-- Where every pixel paints `v`, a place that some pixel owns ends with `v`, whatever it held. -/
theorem foldl_paint_constant {V : Type} {owns : Px → Prop} [DecidablePred owns] {paint : Px → V → V} {v : V}
    {px : List Px} (hv : ∀ p ∈ px, ∀ d, paint p d = v) (ho : ∃ p ∈ px, owns p) (old : V) :
    px.foldl (fun d p => if owns p then paint p d else d) old = v := by
  induction px using List.reverseRecOn with
  | nil => obtain ⟨_, hp, _⟩ := ho; cases hp
  | append_singleton ps q ih =>
    rw [List.foldl_append, List.foldl_cons, List.foldl_nil]
    split
    · exact hv q (by simp) _
    · rename_i hq
      refine ih (fun p hp => hv p (List.mem_append_left _ hp)) ?_
      obtain ⟨p, hp, hown⟩ := ho
      obtain hp | hp := List.mem_append.1 hp
      · exact ⟨p, hp, hown⟩
      · rw [List.mem_singleton.1 hp] at hown
        exact absurd hown hq

section
variable {s : State} {a : BlitArgs} {m : Memory} {x y : Int}

theorem colorPixel_of_constant_paint {paint : Px → Color → Color} {v : Color} (h : bytesPainted a paint s m)
    (hv : ∀ p ∈ visited s a, ∀ d, paint p d = v) (hp : ∃ p ∈ visited s a, p.dx = x ∧ p.dy = y) :
    colorPixel (endedOk s m) a.dst x y = v := by
  obtain ⟨p, hp, rfl, rfl⟩ := hp
  refine (h.1 _).trans ?_
  unfold paintedByte
  refine foldl_paint_constant hv ?_ _
  exact ⟨p, hp, rfl⟩

theorem monoPixel_of_constant_paint {paint : Px → Bool → Bool} {v : Bool} (h : bitsPainted a paint s m)
    (hv : ∀ p ∈ visited s a, ∀ d, paint p d = v) (hp : ∃ p ∈ visited s a, p.dx = x ∧ p.dy = y) :
    monoPixel (endedOk s m) a.dst x y = v := by
  obtain ⟨p, hp, rfl, rfl⟩ := hp
  refine (h.1 _ _ (by omega)).trans ?_
  unfold paintedBit
  refine foldl_paint_constant hv ?_ _
  exact ⟨p, hp, rfl, rfl⟩

end

/-! ### Bitmaps whose rows are not in the table (40_primitives R141) -/

section
variable {s : State} {a : BlitArgs} (h : contract a = true)
  (hd : a.dst.format = .mono1 ∨ a.dst.format = .color8) (hs : a.src.format ≠ .color8Circular)
include h hd hs

theorem rowRuns_of_linear {y : Int} (hy : a.rect.y ≤ y) (hy' : y < maxY a.rect) : rowRuns s.cfg.rowtab a y :=
  (rowRuns_iff_known h (hd.imp_right fun h8 => by rw [h8]; rfl) hy hy').2
    ⟨rowKnown_of_not_circular (by obtain hf | hf := hd <;> simp [hf]) y, rowKnown_of_not_circular hs _⟩

theorem runs_of_linear (ht : touchable s a = true) : runs s a = true :=
  runs_iff.2 ⟨blitPlan_stop_eq_none.2 (.inr fun _ => rowRuns_of_linear h hd hs), ht⟩

/-- Under the contract every pixel of the rectangle is visited, since the window holds the destination bounds
(40_primitives R143). -/
theorem exists_visited_of_linear {x y : Int} (hin : inRect a.rect x y = true) :
    ∃ p ∈ visited s a, p.dx = x ∧ p.dy = y := by
  obtain ⟨⟨hx, hx'⟩, hy, hy'⟩ := inRect_iff.1 hin
  obtain ⟨⟨h0, _⟩, ⟨_, hright, _⟩, _⟩ := contract_iff.1 h
  refine (visits_iff (hd.imp_right fun h8 => by rw [h8]; rfl) x y).2
    ⟨hin, ?_, fun hc => absurd hc hs, fun z hz hzy => rowRuns_of_linear h hd hs hz (hzy.trans_lt hy')⟩
  obtain hf | hf := hd
  · simp [inWindow, hf]
  · simp only [inWindow, hf, Bool.and_eq_true, decide_eq_true_eq]
    unfold maxX at *
    omega

end

/-- Tiling a source of one pixel gives that pixel everywhere (40_primitives R145, R146, R149). -/
theorem source_of_one_pixel {s : State} {a : BlitArgs} (hw : a.src.bounds.w = 1) (hh : a.src.bounds.h = 1)
    (hd : a.dst.format = .mono1 ∨ a.dst.format.isEightBit = true) {p : Px} (hp : p ∈ visited s a) :
    p.sx = a.src.bounds.x ∧ p.sy = a.src.bounds.y := by
  obtain ⟨_, _, hsx, hsy, _⟩ := mem_visited hp hd
  simp [hsx, hsy, srcX, srcY, hw, hh]

/-- Settles O45: every pixel of the rectangle is visited, and all of them paint the one source value. -/
theorem onePixelSourceFillsTheRectangle : Obligations.OnePixelSourceFillsTheRectangle := by
  refine fun s hacc => ⟨?_, ?_⟩
  · intro a h hw hh _ ht
    have hd : a.dst.format = .mono1 ∨ a.dst.format = .color8 := .inr rfl
    have hs : a.src.format ≠ .color8Circular := nofun
    obtain ⟨m, hm, hpaint⟩ := c8c8_painted (a := a) combineCopy_paints ht rfl rfl
    refine ⟨endedOk s m, ?_, fun x y hin => ?_⟩
    · rw [exec]
      exact (whenAccepting_of_accepting hacc _).trans (runBlit_ok (runs_of_linear h hd hs ht) hm)
    · refine colorPixel_of_constant_paint hpaint (fun p hp _ => ?_) (exists_visited_of_linear h hd hs hin)
      obtain ⟨hsx, hsy⟩ := source_of_one_pixel hw hh (.inr rfl) hp
      rw [hsx, hsy]
  · intro a h hw hh _ ht hasrc hadst
    have hd : a.dst.format = .mono1 ∨ a.dst.format = .color8 := .inl rfl
    have hs : a.src.format ≠ .color8Circular := nofun
    have hal : (isAligned a.src && isAligned a.dst) = true := by rw [hasrc, hadst]; rfl
    obtain ⟨m, hm, hpaint⟩ := m1m1_painted (a := a) m1m1AssignForm_is ht rfl rfl
    refine ⟨endedOk s m, ?_, fun x y hin => ?_⟩
    · rw [exec]
      exact ((whenAccepting_of_accepting hacc _).trans (withAlignment_of_aligned hal s _)).trans
        (runBlit_ok (runs_of_linear h hd hs ht) hm)
    · refine monoPixel_of_constant_paint hpaint (fun p hp _ => ?_) (exists_visited_of_linear h hd hs hin)
      obtain ⟨hsx, hsy⟩ := source_of_one_pixel hw hh (.inl rfl) hp
      rw [hsx, hsy]

end Sys2Proof.Machine
end

section
/-! PROOFS. The laws of the colour library (40_primitives R130 to R132). -/

namespace Sys2Proof.Machine

theorem alpha_withAlpha (c : Color) (v : BitVec 2) : alpha (withAlpha c v) = v := BitVec.extractLsb'_append_eq_left

theorem withAlpha_alpha (c : Color) : withAlpha c (alpha c) = c :=
  BitVec.extractLsb'_append_extractLsb' (w := 2) (len := 6)

/-- A colour already of the alpha it should have is left as it is by `withAlpha`. -/
theorem withAlpha_of_alpha_eq {c : Color} {v : BitVec 2} (h : alpha c = v) : withAlpha c v = c :=
  h ▸ withAlpha_alpha c

/-- White and black are opaque (40_primitives R127). -/
theorem alpha_ne_zero_of_white_or_black {c : Color} (h : c = white ∨ c = black) : alpha c ≠ 0 := by
  obtain rfl | rfl := h <;> decide

/-- Building the laws in makes any library lawful (40_primitives R131; entry 4). -/
theorem lawfulLibrary_lawfulLib (raw : ColorLib) : LawfulLibrary (lawfulLib raw) := by
  refine ⟨fun c d h => if_pos h, fun c d h => ?_, ⟨rfl, rfl⟩, fun c => ?_, ⟨rfl, rfl, fun c h => ?_⟩,
    fun a => if_pos rfl, fun a b => ?_, rfl, fun c h => ?_⟩
  · have h0 : alpha c ≠ 0 := by rw [h]; decide
    exact (if_neg h0).trans (if_pos h)
  · simp only [lawfulLib]
    split
    · rfl
    · exact alpha_withAlpha _ _
  · have hc : ¬ (c = white ∨ c = black) := fun hc => alpha_ne_zero_of_white_or_black hc h
    simp only [lawfulLib, if_neg hc, if_pos h]
    exact alpha_withAlpha _ _
  · simp only [lawfulLib, eq_comm (a := b), Bool.or_comm (keptApart b a), Bool.or_comm (raw.equal b a)]
  · have apart {w : Color} (hw : w = white ∨ w = black) : (lawfulLib raw).equal w c = false := by
      have hne : w ≠ c := fun he => alpha_ne_zero_of_white_or_black hw (he ▸ h)
      have hkept : keptApart w c = true := by simp [keptApart, hw, isTransparent, h]
      simp only [lawfulLib, if_neg hne, hkept, Bool.true_or, if_true]
    exact ⟨apart (.inl rfl), apart (.inr rfl)⟩

/-- The alpha of a colour put together from its four channels (40_primitives R126). -/
theorem alpha_append (a r g b : BitVec 2) : alpha (a ++ r ++ g ++ b) = a := by
  change (a ++ r ++ g ++ b : BitVec (2 + 2 + 2 + 2)).extractLsb' 6 2 = a
  rw [BitVec.extractLsb'_append_eq_of_le (by decide), BitVec.extractLsb'_append_eq_of_le (by decide)]
  exact BitVec.extractLsb'_append_eq_left

theorem lawfulLibrary_refColorLib : LawfulLibrary refColorLib := by
  refine ⟨fun c d h => if_pos h, fun c d h => ?_, ⟨rfl, rfl⟩, fun c => ?_, ⟨rfl, rfl, fun c h => ?_⟩,
    fun a => by simp [refColorLib], fun a b => ?_, rfl, fun c h => ?_⟩
  · have h0 : alpha c ≠ 0 := by rw [h]; decide
    exact (if_neg h0).trans (if_pos h)
  · exact alpha_append _ _ _ _
  · simp only [refColorLib, if_pos h]; rfl
  · simp only [refColorLib, Bool.and_comm (isTransparent b), Bool.beq_comm (a := b)]
  · have apart {w : Color} (hw : w = white ∨ w = black) : refColorLib.equal w c = false := by
      have hopaque := alpha_ne_zero_of_white_or_black hw
      have hne : w ≠ c := fun he => hopaque (he ▸ h)
      have hclear : isTransparent w = false := beq_eq_false_iff_ne.2 hopaque
      simp [refColorLib, hclear, hne]
    exact ⟨apart (.inl rfl), apart (.inr rfl)⟩

/-- Settles O50: the engine's library has the laws built in. -/
theorem engineLibraryObeysTheLaws : Obligations.EngineLibraryObeysTheLaws :=
  ⟨lawfulLibrary_lawfulLib _, lawfulLibrary_refColorLib⟩

/-! ### A lawful library already has the values that the laws fix (entry 4) -/

namespace LawfulLibrary

section
variable {lib : ColorLib} (h : LawfulLibrary lib)
include h

theorem lawfulLib_grayscale (c : Color) : (lawfulLib lib).grayscale c = lib.grayscale c := by
  obtain ⟨_, _, ⟨hwhite, hblack⟩, halpha, _⟩ := h
  simp only [lawfulLib]
  split
  · rename_i hc
    obtain rfl | rfl := hc
    exacts [hwhite.symm, hblack.symm]
  · exact withAlpha_of_alpha_eq (halpha c)

theorem lawfulLib_alphaBlend (c d : Color) : (lawfulLib lib).alphaBlend c d = lib.alphaBlend c d := by
  obtain ⟨hclear, hopaque, _⟩ := h
  simp only [lawfulLib]
  split
  · exact (hclear c d ‹_›).symm
  · split
    · exact (hopaque c d ‹_›).symm
    · rfl

theorem lawfulLib_getBw (c : Color) : (lawfulLib lib).getBw c = lib.getBw c := by
  obtain ⟨_, _, _, _, ⟨hwhite, hblack, hclear⟩, _⟩ := h
  simp only [lawfulLib]
  split
  · rename_i hc
    obtain rfl | rfl := hc
    exacts [hwhite.symm, hblack.symm]
  · split
    · exact withAlpha_of_alpha_eq (hclear c ‹_›)
    · rfl

/-- Two colours that law L6 keeps apart are not equal (40_primitives R131). -/
theorem equal_of_keptApart {c d : Color} (hne : c ≠ d) (hk : keptApart c d = true) : lib.equal c d = false := by
  obtain ⟨_, _, _, _, _, _, hsymm, hwb, hclear⟩ := h
  simp only [keptApart, Bool.and_eq_true, Bool.or_eq_true, beq_iff_eq, isTransparent] at hk
  obtain ⟨rfl | rfl, (rfl | rfl) | ht⟩ := hk
  · exact absurd rfl hne
  · exact hwb
  · exact (hclear d ht).1
  · exact (hsymm _ _).trans hwb
  · exact absurd rfl hne
  · exact (hclear d ht).2

theorem lawfulLib_equal (c d : Color) : (lawfulLib lib).equal c d = lib.equal c d := by
  obtain ⟨_, _, _, _, _, hrefl, hsymm, _⟩ := id h
  simp only [lawfulLib]
  split
  · rename_i heq
    rw [heq, hrefl]
  · rename_i hne
    split
    · rename_i hk
      obtain hk | hk := Bool.or_eq_true_iff.1 hk
      · exact (h.equal_of_keptApart hne hk).symm
      · rw [hsymm, h.equal_of_keptApart (Ne.symm hne) hk]
    · rw [hsymm d c, Bool.or_self]

end

end LawfulLibrary

/-- Settles O51: each function of a lawful library already has the value that its law fixes. -/
theorem everyLawfulLibraryIsCovered : Obligations.EveryLawfulLibraryIsCovered := by
  intro lib h
  calc lawfulLib lib
      = ⟨(lawfulLib lib).grayscale, (lawfulLib lib).alphaBlend, lib.tintViaLuminance, (lawfulLib lib).getBw,
          (lawfulLib lib).equal⟩ := rfl
    _ = ⟨lib.grayscale, lib.alphaBlend, lib.tintViaLuminance, lib.getBw, lib.equal⟩ := by
      rw [funext h.lawfulLib_grayscale, funext₂ h.lawfulLib_alphaBlend, funext h.lawfulLib_getBw,
        funext₂ h.lawfulLib_equal]

end Sys2Proof.Machine
end

section
/-! PROOFS. The no-op path, the tint normalisation and the rows without a routine (41_dispatch R162 to R169,
60_exceptions R312). -/

namespace Sys2Proof.Machine

/-! ### The no-op test (40_primitives R129, 41_dispatch R162) -/

theorem isNoopTint_iff {op : CompOp} {tint : Color} :
    isNoopTint op tint = true ↔ (op = .tint ∨ op = .tintLuminance) ∧ alpha tint = 0 := by
  simp only [isNoopTint, isTransparent, Bool.and_eq_true, Bool.or_eq_true, beq_iff_eq]

theorem blitTiled_of_noop {op : CompOp} {a : BlitArgs} (h : isNoopTint op a.tint = true) (lib : ColorLib)
    (s : State) : blitTiled lib op a s = .next (endedOk s s.mem) := by
  rw [blitTiled, if_pos h, endOk_eq]

/-- Where the engine executes commands, the two commands are their shared body. -/
theorem exec_blit_eq_blitTiled {s : State} {i : Instr} {a : BlitArgs} (hacc : accepting s = true)
    (hi : (i = .blit ∧ a = blitArgs s) ∨ (i = .blitAt ∧ a = blitAtArgs s)) :
    exec i s = blitTiled engineLib (opField s.ctrl) a s := by
  rw [exec_blit_eq hi, whenAccepting_of_accepting hacc]

/-- Settles O15: the no-op test comes before every other check. -/
theorem transparentTintIsNoOp : Obligations.TransparentTintIsNoOp := by
  intro s hacc hop halpha
  have ends {i : Instr} {a : BlitArgs} (hi : (i = .blit ∧ a = blitArgs s) ∨ (i = .blitAt ∧ a = blitAtArgs s)) :
      exec i s = .next (endedOk s s.mem) := by
    rw [exec_blit_eq_blitTiled hacc hi]
    exact blitTiled_of_noop (by rw [tint_of_blitArgs hi]; exact isNoopTint_iff.2 ⟨hop, halpha⟩) _ _
  exact ⟨ends (.inl ⟨rfl, rfl⟩), ends (.inr ⟨rfl, rfl⟩)⟩

/-- Settles O16: IS_NOOP reports the test that BLIT makes. -/
theorem isNoopAnswersInRes0 : Obligations.IsNoopAnswersInRes0 := by
  refine ⟨by decide, fun s hacc => ?_⟩
  rw [exec, execIsNoop, whenAccepting_of_accepting hacc, endOk_eq]
  simp only [isNoopTint_iff]
  rfl

/-! ### The normalisation for a Mono1 destination (41_dispatch R164, R165) -/

section
variable {lib : ColorLib} {op : CompOp} {tint : Color}

theorem normalise_tint (hop : op = .tint ∨ op = .tintLuminance) :
    normalise lib .mono1 op tint =
      if lib.equal (lib.getBw tint) black then some (.and, lib.getBw tint)
      else if lib.equal (lib.getBw tint) white then some (.set, lib.getBw tint)
      else none := if_pos ⟨rfl, hop⟩

theorem normalise_tint_black (hop : op = .tint ∨ op = .tintLuminance)
    (hb : lib.equal (lib.getBw tint) black = true) :
    normalise lib .mono1 op tint = some (.and, lib.getBw tint) := by
  rw [normalise_tint hop, if_pos hb]

theorem normalise_tint_white (hop : op = .tint ∨ op = .tintLuminance)
    (hb : lib.equal (lib.getBw tint) black = false) (hw : lib.equal (lib.getBw tint) white = true) :
    normalise lib .mono1 op tint = some (.set, lib.getBw tint) := by
  rw [normalise_tint hop, hb, if_neg Bool.false_ne_true, if_pos hw]

theorem normalise_tint_neither (hop : op = .tint ∨ op = .tintLuminance)
    (hb : lib.equal (lib.getBw tint) black = false) (hw : lib.equal (lib.getBw tint) white = false) :
    normalise lib .mono1 op tint = none := by
  rw [normalise_tint hop, hb, hw, if_neg Bool.false_ne_true, if_neg Bool.false_ne_true]

theorem normalise_unchanged {d : PixelFormat} (h : d ≠ .mono1 ∨ (op ≠ .tint ∧ op ≠ .tintLuminance)) :
    normalise lib d op tint = some (op, tint) := by
  refine if_neg ?_
  rintro ⟨hd, hop⟩
  obtain h | ⟨ht, hl⟩ := h
  · exact h hd
  · exact hop.elim ht hl

end

/-- Settles O17: a tint without an outcome ends the body after the no-op test at the latest. -/
theorem tintNeitherBlackNorWhite : Obligations.TintNeitherBlackNorWhite := by
  refine ⟨fun lib op a s hd hop hb hw => ?_, fun s hacc => ?_⟩
  · cases hnoop : isNoopTint op a.tint with
    | true => exact blitTiled_of_noop hnoop lib s
    | false =>
      rw [blitTiled, hnoop, hd, normalise_tint_neither hop hb hw, if_neg Bool.false_ne_true, endOk_eq]
  · exact ⟨exec_blit_eq_blitTiled hacc (.inl ⟨rfl, rfl⟩), exec_blit_eq_blitTiled hacc (.inr ⟨rfl, rfl⟩)⟩

/-- Settles O18: the laws keep black and white as they are, and apart. -/
theorem blackTintIsAndWhiteTintIsSet : Obligations.BlackTintIsAndWhiteTintIsSet := by
  refine fun lib => ⟨fun op tint hop => ⟨normalise_tint_black hop, normalise_tint_white hop⟩,
    fun hlawful op hop => ?_, fun d op tint => normalise_unchanged⟩
  obtain ⟨_, _, _, _, ⟨hwhite, hblack, _⟩, hrefl, _, hapart, _⟩ := hlawful
  constructor
  · rw [normalise_tint_black hop (by rw [hblack]; exact hrefl _), hblack]
  · rw [normalise_tint_white hop (by rw [hwhite]; exact hapart) (by rw [hwhite]; exact hrefl _), hwhite]

/-! ### The pairs without a routine (41_dispatch R166, 60_exceptions R312) -/

theorem unsupportedPair_eq (s : State) : unsupportedPair s = .next (endedError s 1 0x02) := by
  rw [unsupportedPair, raiseError_eq]; rfl

/-- Settles O24: the six rows are one meaning. -/
theorem unsupportedRowsReportTheirPair : Obligations.UnsupportedRowsReportTheirPair := by
  intro s op d f hacc i hi
  rw [← unsupportedPair_eq, ← whenAccepting_of_accepting hacc unsupportedPair]
  simp only [List.mem_cons, List.not_mem_nil, or_false] at hi
  rcases hi with rfl | rfl | rfl | rfl | rfl | rfl <;> rfl

end Sys2Proof.Machine
end

section
/-! PROOFS. A BLIT that runs to its end, and what a BLIT leaves of the other registers (41_dispatch R161, R168, R170,
47_framebuffer R298). -/

namespace Sys2Proof.Machine

/-! ### Where its bytes are backed a pixel runs, whatever PIXMEM holds (20_memory R60, R71) -/

section
variable {s : State} {a : BlitArgs} {p : Px}

theorem exists_writeByte (ht : touchable s a = true) (hp : p ∈ visited s a) (hd : a.dst.format.isEightBit = true)
    (c : Color) (m : Memory) : ∃ m', writeByte (pixEnv s) m (dstAddr a.dst p) c = .ok m' :=
  ⟨_, writeByte_of_backed c (backed_dst ht hp (by rw [dstBytes_eightBit hd]; exact List.mem_singleton_self _))⟩

theorem exists_readWord_dst (ht : touchable s a = true) (hp : p ∈ visited s a) (hd : a.dst.format = .mono1)
    (m : Memory) : ∃ w, readWord (pixEnv s) m (dstAddr a.dst p) = .ok w :=
  readWord_of_backedBytes (List.all_eq_true.2 fun _ hb => backed_dst ht hp (by rwa [dstBytes_mono1 hd]))

theorem exists_readWord_src (ht : touchable s a = true) (hp : p ∈ visited s a) (hs : a.src.format = .mono1)
    (m : Memory) : ∃ w, readWord (pixEnv s) m (monoWordAddr a.src (p.sx / 32) p.sy) = .ok w :=
  readWord_of_backedBytes (List.all_eq_true.2 fun _ hb => backed_src ht hp (by rwa [srcBytes_mono1 hs]))

theorem exists_palIndex (ht : touchable s a = true) (hp : p ∈ visited s a)
    (hs : isPaletteFormat a.src.format = true) (m : Memory) :
    ∃ i, palIndex (pixEnv s) m a.src p.sx p.sy = .ok i := by
  have hread : readByte (pixEnv s) m (palByteAddr a.src p.sx p.sy) = _ :=
    readByte_of_backed (backed_src ht hp (by rw [srcBytes_palette hs]; exact List.mem_singleton_self _))
  simp only [palIndex, hread, bind, Except.bind]
  exact ⟨_, rfl⟩

theorem LoopPixel.exists_ok {op : CompOp} {f : Px → Memory → Except Stop Memory} (h : LoopPixel op (pixEnv s) a f)
    (ht : touchable s a = true) (hp : p ∈ visited s a) (m : Memory) : ∃ m', f p m = .ok m' := by
  cases h with
  | m1m1 hs hd hg =>
    obtain ⟨w, hw⟩ := exists_readWord_src ht hp hs m
    obtain ⟨d, hr⟩ := exists_readWord_dst ht hp hd m
    obtain ⟨m', hrun, _⟩ := m1m1Pixel_bits hg hd hw hr
    exact ⟨m', hrun⟩
  | palm1 table hs hd =>
    obtain ⟨i, hi⟩ := exists_palIndex ht hp hs m
    obtain ⟨d, hr⟩ := exists_readWord_dst ht hp hd m
    obtain ⟨m', hrun, _⟩ := palm1Pixel_bits (table := table) hd hi hr
    exact ⟨m', hrun⟩
  | palc8 hs hd hc =>
    obtain ⟨i, hi⟩ := exists_palIndex ht hp hs m
    have hcolor : palColor (pixEnv s) m a.src i = _ :=
      readByte_of_backed (backed_palette ht (mem_paletteBytes hs (palIndex_lt hi)))
    simp only [palc8Pixel, hi, hcolor, bind, Except.bind]
    rw [hc]
    exact exists_writeByte ht hp hd _ m
  | c8c8 hs hd hc =>
    have hread : readByte (pixEnv s) m (p.srcPtr + p.sx) = _ :=
      readByte_of_backed (backed_src ht hp (by rw [srcBytes_eightBit hs]; exact List.mem_singleton_self _))
    simp only [c8c8Pixel, hread, bind, Except.bind]
    rw [hc]
    exact exists_writeByte ht hp hd _ m
  | @m1c8 expand hs hd hx =>
    obtain ⟨w, hw⟩ := exists_readWord_src ht hp hs m
    simp only [m1c8Pixel, monoBit, hw, bind, Except.bind, pure, Except.pure]
    cases expand (w.getLsbD (p.sx % 32).toNat) with
    | none => exact ⟨m, rfl⟩
    | some c => exact exists_writeByte ht hp hd c m

end

theorem runPixels_exists_ok {f : Px → Memory → Except Stop Memory} {px : List Px}
    (hf : ∀ p ∈ px, ∀ m, ∃ m', f p m = .ok m') (m : Memory) : ∃ m', runPixels f px m = .ok m' := by
  induction px generalizing m with
  | nil => exact ⟨m, rfl⟩
  | cons p ps ih =>
    obtain ⟨m1, h1⟩ := hf p (List.mem_cons_self ..) m
    obtain ⟨m2, h2⟩ := ih (fun q hq => hf q (List.mem_cons_of_mem _ hq)) m1
    exact ⟨m2, by simp only [runPixels, h1, h2]⟩

/-! ### The two commands run to their end (41_dispatch R161, R168, R170) -/

/-- When a BLIT runs to its end does not depend on its tint. -/
theorem runs_tint (s : State) (a : BlitArgs) (t : Color) : runs s { a with tint := t } = runs s a := by
  unfold runs touchable
  rw [blitPlan_tint, visited_tint]
  rfl

/-- A routine past its entry checks whose rows can be walked ends with OK (41_dispatch R170). -/
theorem runRoutine_of_runs {lib : ColorLib} {op : CompOp} {a : BlitArgs} {s : State} (h : entryPasses op a = true)
    (ht : a.dst.format = .mono1 → op ≠ .tint ∧ op ≠ .tintLuminance) (hr : runs s a = true) :
    ∃ m, runRoutine lib op a s = .next (endedOk s m) := by
  obtain ⟨_, htouch⟩ := runs_iff.1 hr
  have hpal : backedBytes s (paletteBytes a.src) = true := List.all_eq_true.2 fun _ hb => backed_palette htouch hb
  obtain ⟨f, hf, hloop⟩ := runRoutine_loop (lib := lib) h ht fun _ => hpal
  obtain ⟨m, hm⟩ := runPixels_exists_ok (fun _ hp => hf.exists_ok htouch hp) s.mem
  exact ⟨m, hloop.trans (runBlit_ok hr hm)⟩

/-- Either command ends with OK and keeps every byte that no visited pixel is written through (20_memory R78). -/
theorem exec_blit_of_runs {s : State} {i : Instr} {a : BlitArgs} {op : CompOp} {t : Color}
    (hi : (i = .blit ∧ a = blitArgs s) ∨ (i = .blitAt ∧ a = blitAtArgs s)) (hacc : accepting s = true)
    (hnoop : isNoopTint (opField s.ctrl) (tintField s.ctrl) = false)
    (hnorm : normalise engineLib a.dst.format (opField s.ctrl) (tintField s.ctrl) = some (op, t))
    (hentry : entryPasses op a = true) (hr : runs s a = true) :
    ∃ m, exec i s = .next (endedOk s m)
      ∧ ∀ b, (∀ p ∈ visited s a, b ∉ dstBytes a.dst p) → peek s.epoch m b = peek s.epoch s.mem b := by
  obtain ⟨hexec, htint⟩ := exec_blit_eq_runRoutine hacc hi hnoop hnorm
  obtain ⟨m, hm⟩ := runRoutine_of_runs (lib := engineLib) (a := { a with tint := t }) hentry htint
    ((runs_tint s a t).trans hr)
  have hend := hexec.trans hm
  exact ⟨m, hend, (onlyVisitedPixelsAreWritten.1 s _ i a hi hend).1⟩

/-- Settles O20: past the entry checks every visited pixel of the loop runs. -/
theorem blitRunsToItsEnd : Obligations.BlitRunsToItsEnd :=
  fun _ _ _ => exec_blit_of_runs (.inl ⟨rfl, rfl⟩)

/-- Settles O21, as O20 over the operands of BLIT_AT. -/
theorem blitAtRunsToItsEnd : Obligations.BlitAtRunsToItsEnd :=
  fun _ _ _ => exec_blit_of_runs (.inr ⟨rfl, rfl⟩)

/-! ### The registers a BLIT leaves (47_framebuffer R298, 60_exceptions R311) -/

/-- PIXMEM, STATUS and ERRLOG apart, `t` is `s`. -/
theorem frame_of_blitEnd {s t : State} (h : BlitEnd s t) :
    t = { s with mem := t.mem, status := t.status, errlog := t.errlog } := by
  cases h <;> rfl

/-- Of the three errors of a BLIT two are logged (10_state R25, 60_exceptions R311). -/
theorem errlog_of_blitEnd {s t : State} (h : BlitEnd s t) :
    t.errlog = s.errlog ∨ t.errlog = s.errlog ||| 0x02 ∨ t.errlog = s.errlog ||| 0x08 := by
  cases h with
  | halted | ok _ | fatal _ _ => exact .inl rfl
  | error hc =>
    simp only [List.mem_cons, List.not_mem_nil, or_false] at hc
    obtain rfl | rfl | rfl := hc
    · exact .inr (.inl rfl)
    · exact .inl BitVec.or_zero
    · exact .inr (.inr rfl)

/-- Settles O42, from the four ways a BLIT can end. -/
theorem blitTouchesNoOtherRegister : Obligations.BlitTouchesNoOtherRegister := by
  intro s t i hi h
  have hother : i ∉ otherCommands := by obtain rfl | rfl := hi <;> simp [otherCommands]
  have hend := exec_ends hother s t h
  exact ⟨frame_of_blitEnd hend, errlog_of_blitEnd hend⟩

end Sys2Proof.Machine
end

section
/-! PROOFS. BLIT_AT as the BLIT of its clipped rectangle (41_dispatch R168, 40_primitives R121). -/

namespace Sys2Proof.Machine

/-! ### The registers RECT_ORG, RECT_SIZE and OFFS replaced -/

/-- The state with the rectangle and the offset of a BLIT replaced. -/
def withPlace (org size offs : Word) (s : State) : State := { s with rectOrg := org, rectSize := size, offs := offs }

/-- An answer with its next state, if it has one, changed. -/
def mapNext (g : State → State) : Answer → Answer
  | .next t => .next (g t)
  | .fault r => .fault r
  | .refused r => .refused r

/-- A meaning that takes nothing from the three registers and leaves them as they are. -/
def IgnoresPlace (F : State → Answer) : Prop :=
  ∀ (org size offs : Word) (s : State), F (withPlace org size offs s) = mapNext (withPlace org size offs) (F s)

theorem mapNext_stopAnswer (g : State → State) (x : Stop) : mapNext g (stopAnswer x) = stopAnswer x := by
  cases x <;> rfl

/-! ### A BLIT over given operands ignores them (41_dispatch R160) -/

theorem ignoresPlace_endOk : IgnoresPlace fun s => .next (endOk s) := fun _ _ _ _ => rfl

theorem ignoresPlace_raiseError (c : ResultCode) : IgnoresPlace fun s => .next (raiseError c s) := fun _ _ _ _ => rfl

theorem ignoresPlace_raiseFatal (c : FatalCause) : IgnoresPlace fun s => .next (raiseFatal c s) := fun _ _ _ _ => rfl

theorem ignoresPlace_endRows (stop : Option RowStop) : IgnoresPlace (endRows stop) := by
  intro org size offs s
  match stop with
  | none => rfl
  | some (.fatal c) => rfl
  | some (.refuse r) => rfl

theorem ignoresPlace_runBlit (f : PixEnv → Px → Memory → Except Stop Memory) (a : BlitArgs) :
    IgnoresPlace fun s => runBlit (f (pixEnv s)) a s := by
  intro org size offs s
  have hcfg : (withPlace org size offs s).cfg = s.cfg := rfl
  have hmem : (withPlace org size offs s).mem = s.mem := rfl
  have henv : pixEnv (withPlace org size offs s) = pixEnv s := rfl
  simp only [runBlit, hcfg, hmem, henv]
  split
  · rfl
  · split
    · exact (mapNext_stopAnswer _ _).symm
    · rename_i m _
      exact ignoresPlace_endRows _ org size offs (setMem s m)

theorem ignoresPlace_rejectBlit (look : PixEnv → Px → Memory → Except Stop Unit) (a : BlitArgs) :
    IgnoresPlace fun s => rejectBlit (look (pixEnv s)) a s := by
  intro org size offs s
  have hcfg : (withPlace org size offs s).cfg = s.cfg := rfl
  have hmem : (withPlace org size offs s).mem = s.mem := rfl
  have henv : pixEnv (withPlace org size offs s) = pixEnv s := rfl
  simp only [rejectBlit, hcfg, hmem, henv]
  split
  · exact ignoresPlace_endRows _ org size offs s
  · split
    · exact (mapNext_stopAnswer _ _).symm
    · rfl

theorem ignoresPlace_withPalette {a : BlitArgs} {rest : State → Answer} (h : IgnoresPlace rest) :
    IgnoresPlace fun s => withPalette a s rest := by
  unfold withPalette
  split
  · exact ignoresPlace_raiseError .missingPalette
  · exact h

theorem ignoresPlace_withAlignment {ok : Bool} {rest : State → Answer} (h : IgnoresPlace rest) :
    IgnoresPlace fun s => withAlignment ok s rest := by
  unfold withAlignment
  split
  · exact h
  · exact ignoresPlace_raiseFatal .unalignedBuffer

theorem ignoresPlace_whenAccepting {f : State → Answer} (h : IgnoresPlace f) :
    IgnoresPlace fun s => whenAccepting s f := by
  intro org size offs s
  have hstatus : (withPlace org size offs s).status = s.status := rfl
  simp only [whenAccepting, hstatus]
  split
  · rfl
  · exact h org size offs s

/-! The five routines. -/

theorem ignoresPlace_m1m1 (form : WordForm) (a : BlitArgs) : IgnoresPlace (m1m1 form a) :=
  ignoresPlace_withAlignment (ignoresPlace_runBlit (fun e => m1m1Pixel form e a) a)

/-- PALM1 reads its table from PIXMEM alone (43_palette_to_mono1 R202). -/
theorem ignoresPlace_afterTable {lib : ColorLib} {recolor : Color → Color} {a : BlitArgs}
    {rest : List DitherEntry → State → Answer} (h : ∀ table, IgnoresPlace (rest table)) :
    IgnoresPlace fun s =>
      match ditherTable lib recolor (pixEnv s) s.mem a.src 0 (2 ^ bpp a.src.format) with
      | .error x => stopAnswer x
      | .ok table => rest table s := by
  intro org size offs s
  have hmem : (withPlace org size offs s).mem = s.mem := rfl
  have henv : pixEnv (withPlace org size offs s) = pixEnv s := rfl
  simp only [hmem, henv]
  split
  · exact (mapNext_stopAnswer _ _).symm
  · exact h _ org size offs s

theorem ignoresPlace_palm1 (lib : ColorLib) (recolor : Color → Color) (a : BlitArgs) :
    IgnoresPlace (palm1 lib recolor a) :=
  ignoresPlace_withPalette <| ignoresPlace_withAlignment <|
    ignoresPlace_afterTable fun table => ignoresPlace_runBlit (fun e => palm1Pixel table e a) a

theorem ignoresPlace_palm1Rejected (lib : ColorLib) (a : BlitArgs) : IgnoresPlace (palm1Rejected lib a) :=
  ignoresPlace_withPalette <| ignoresPlace_withAlignment <|
    ignoresPlace_afterTable fun _ => ignoresPlace_rejectBlit (fun e => palm1Look e a) a

theorem ignoresPlace_palc8 (combine : Combine) (a : BlitArgs) : IgnoresPlace (palc8 combine a) :=
  ignoresPlace_withPalette (ignoresPlace_runBlit (fun e => palc8Pixel combine e a) a)

theorem ignoresPlace_palc8Rejected (a : BlitArgs) : IgnoresPlace (palc8Rejected a) :=
  ignoresPlace_withPalette (ignoresPlace_rejectBlit (fun e => palc8Look e a) a)

theorem ignoresPlace_c8c8 (combine : Combine) (a : BlitArgs) : IgnoresPlace (c8c8 combine a) :=
  ignoresPlace_runBlit (fun e => c8c8Pixel combine e a) a

theorem ignoresPlace_m1c8 (expand : Expand) (a : BlitArgs) : IgnoresPlace (m1c8 expand a) :=
  ignoresPlace_withAlignment (ignoresPlace_runBlit (fun e => m1c8Pixel expand e a) a)

/-! The rows of a routine, by operator. -/

theorem ignoresPlace_run (r : Routine) (lib : ColorLib) (op : CompOp) (a : BlitArgs) :
    IgnoresPlace fun s => r.run lib op a s := by
  cases r with
  | m1m1 =>
    cases op with
    | assign | assignInverted | or | and | clear | set => exact ignoresPlace_m1m1 _ a
    | tint | tintLuminance => exact fun _ _ _ _ => rfl
  | palm1P1 | palm1P2 =>
    cases op with
    | assign | set | tint | tintLuminance => exact ignoresPlace_palm1 lib _ a
    | assignInverted | or | and | clear => exact ignoresPlace_palm1Rejected lib a
  | palc8P1 | palc8P24 =>
    cases op with
    | assign | set | tint | tintLuminance => exact ignoresPlace_palc8 _ a
    | assignInverted | or | and | clear => exact ignoresPlace_palc8Rejected a
  | c8c8 => cases op <;> exact ignoresPlace_c8c8 _ a
  | m1c8 => cases op <;> exact ignoresPlace_m1c8 _ a

theorem ignoresPlace_runRoutine (lib : ColorLib) (op : CompOp) (a : BlitArgs) :
    IgnoresPlace (runRoutine lib op a) := by
  cases hr : dispatchPair a.src.format a.dst.format with
  | none =>
    rw [funext (runRoutine_of_none hr lib op)]
    exact ignoresPlace_raiseError .unsupportedFormatPair
  | some r =>
    rw [funext (runRoutine_of_some hr lib op)]
    exact ignoresPlace_run r lib op a

theorem ignoresPlace_blitTiled (lib : ColorLib) (op : CompOp) (a : BlitArgs) : IgnoresPlace (blitTiled lib op a) := by
  unfold blitTiled
  split
  · exact ignoresPlace_endOk
  · split
    · exact ignoresPlace_endOk
    · exact ignoresPlace_runRoutine lib _ _

/-! ### The operands of BLIT_AT in the registers of BLIT (41_dispatch R168) -/

/-- A rectangle that starts at a 16-bit point and has a 16-bit size, clipped to another such, is again one
(40_primitives R121). -/
theorem fitsField_clipRect {r b : Rect} (hx : fitsField r.x) (hy : fitsField r.y) (hw : fitsField r.w)
    (hh : fitsField r.h) (hbx : fitsField b.x) (hby : fitsField b.y) :
    fitsField (clipRect r b).x ∧ fitsField (clipRect r b).y ∧ fitsField (clipRect r b).w
      ∧ fitsField (clipRect r b).h := by
  unfold fitsField at *
  simp only [clipRect, maxX, maxY]
  omega

/-- The state whose RECT holds the rectangle of BLIT_AT and whose OFFS is zero. -/
def clippedPlace (s : State) : State :=
  let r := (blitAtArgs s).rect
  withPlace (packFields r.x r.y) (packFields r.w r.h) 0 s

theorem blitArgs_clippedPlace (s : State) : blitArgs (clippedPlace s) = blitAtArgs s := by
  obtain ⟨hx, hy, hw, hh⟩ : fitsField (blitAtArgs s).rect.x ∧ fitsField (blitAtArgs s).rect.y
      ∧ fitsField (blitAtArgs s).rect.w ∧ fitsField (blitAtArgs s).rect.h :=
    fitsField_clipRect (fitsField_lowField _) (fitsField_highField _) (fitsField_lowField _) (fitsField_highField _)
      (fitsField_lowField _) (fitsField_highField _)
  have hrect : rectOf (clippedPlace s).rectOrg (clippedPlace s).rectSize = (blitAtArgs s).rect :=
    rectOf_packFields hx hy hw hh
  have hoff : (⟨lowField 0, highField 0⟩ : Point) = ⟨0, 0⟩ := by decide
  calc blitArgs (clippedPlace s)
      = { blitArgs s with
          rect := rectOf (clippedPlace s).rectOrg (clippedPlace s).rectSize
          off := ⟨lowField 0, highField 0⟩ } := rfl
    _ = blitAtArgs s := by rw [hrect, hoff]; rfl

/-- Over the same operands both commands are one meaning, which ignores the registers put back. -/
theorem exec_blitAt_eq_mapNext (s : State) :
    exec .blitAt s = mapNext (withPlace s.rectOrg s.rectSize s.offs) (exec .blit (clippedPlace s)) := by
  have hignores := ignoresPlace_whenAccepting (ignoresPlace_blitTiled engineLib (opField s.ctrl) (blitAtArgs s))
  calc exec .blitAt s
      = whenAccepting s (blitTiled engineLib (opField s.ctrl) (blitAtArgs s)) := exec_blit_eq (.inr ⟨rfl, rfl⟩)
    _ = mapNext (withPlace s.rectOrg s.rectSize s.offs)
          (whenAccepting (clippedPlace s) (blitTiled engineLib (opField s.ctrl) (blitAtArgs s))) :=
        hignores s.rectOrg s.rectSize s.offs (clippedPlace s)
    _ = mapNext (withPlace s.rectOrg s.rectSize s.offs) (exec .blit (clippedPlace s)) := by
        rw [exec_blit_eq (.inl ⟨rfl, rfl⟩), blitArgs_clippedPlace]; rfl

/-- Settles O22: the match of the statement is `mapNext`. -/
theorem blitAtIsTheClippedBlit : Obligations.BlitAtIsTheClippedBlit := exec_blitAt_eq_mapNext

end Sys2Proof.Machine
end

section
/-! PROOFS. The rows of M1M1: six paint their bits, two are refused (42_mono1_to_mono1 R181 to R189). -/

namespace Sys2Proof.Machine

/-! ### The six rows that have a form (42_mono1_to_mono1 R182 to R188) -/

/-- `i` is the M1M1 row of word form `form`, over the operand registers of a row called by key. -/
def IsMono1Row (i : Instr) (form : WordForm) : Prop :=
  ∀ s, exec i s = whenAccepting s fun s => m1m1 form (rowArgs s .mono1 .mono1) s

theorem m1m1Assign_isMono1Row : IsMono1Row .m1m1Assign m1m1AssignForm := by intro s; rfl

theorem m1m1AssignInverted_isMono1Row : IsMono1Row .m1m1AssignInverted m1m1AssignInvertedForm := by intro s; rfl

theorem m1m1Or_isMono1Row : IsMono1Row .m1m1Or m1m1OrForm := by intro s; rfl

theorem m1m1And_isMono1Row : IsMono1Row .m1m1And m1m1AndForm := by intro s; rfl

theorem m1m1Clear_isMono1Row : IsMono1Row .m1m1Clear m1m1ClearForm := by intro s; rfl

theorem m1m1Set_isMono1Row : IsMono1Row .m1m1Set m1m1SetForm := by intro s; rfl

/-- A row whose form works bit by bit paints the bits of its visited pixels (42_mono1_to_mono1 R181). -/
theorem IsMono1Row.paintsBits {i : Instr} {form : WordForm} {g : Bool → Bool → Bool} {s : State}
    (hrow : IsMono1Row i form) (hg : formIs form g) (hacc : accepting s = true)
    (hsrc : isAligned (rowArgs s .mono1 .mono1).src = true) (hdst : isAligned (rowArgs s .mono1 .mono1).dst = true)
    (hruns : runs s (rowArgs s .mono1 .mono1) = true) :
    Machine.paintsBits i (rowArgs s .mono1 .mono1)
      (fun p d => g d (monoPixel s (rowArgs s .mono1 .mono1).src p.sx p.sy)) s := by
  obtain ⟨m, hm, hpaint⟩ := m1m1_painted (a := rowArgs s .mono1 .mono1) hg (runs_iff.1 hruns).2 rfl rfl
  refine ⟨m, ?_, hpaint⟩
  rw [hrow, whenAccepting_of_accepting hacc, m1m1, withAlignment_of_aligned (by rw [hsrc, hdst]; rfl)]
  exact runBlit_ok hruns hm

/-- Settles O31: each row's form acts on a bit as its operator does. -/
theorem mono1RowsWriteTheirBits : Obligations.Mono1RowsWriteTheirBits := by
  intro s a hacc hsrc hdst hruns
  exact ⟨m1m1Assign_isMono1Row.paintsBits m1m1AssignForm_is hacc hsrc hdst hruns,
    m1m1AssignInverted_isMono1Row.paintsBits m1m1AssignInvertedForm_is hacc hsrc hdst hruns,
    m1m1Or_isMono1Row.paintsBits m1m1OrForm_is hacc hsrc hdst hruns,
    m1m1And_isMono1Row.paintsBits m1m1AndForm_is hacc hsrc hdst hruns,
    m1m1Clear_isMono1Row.paintsBits m1m1ClearForm_is hacc hsrc hdst hruns,
    m1m1Set_isMono1Row.paintsBits m1m1SetForm_is hacc hsrc hdst hruns⟩

/-! ### The two rows without a form (42_mono1_to_mono1 R189) -/

/-- Settles O33: the two arms refuse, and the normalisation turns both operators into `And`, `Set` or a no-op. -/
theorem mono1TintRowsHaveNoForm : Obligations.Mono1TintRowsHaveNoForm :=
  ⟨fun _ => ⟨rfl, rfl⟩, fun _ _ _ _ _ => not_tint_of_normalise⟩

end Sys2Proof.Machine
end

section
/-! PROOFS. The units of the word procedure of M1M1: the columns of a word, the source cursor, and the pixels that one
unit paints (42_mono1_to_mono1 R190 to R192). -/

namespace Sys2Proof.Machine

/-! ### Ranges, and bits painted by one pixel of a list -/

theorem intRange_of_le {lo hi : Int} (h : hi ≤ lo) : intRange lo hi = [] :=
  List.eq_nil_of_length_eq_zero (by rw [length_intRange]; omega)

theorem intRange_append {lo mid hi : Int} (h : lo ≤ mid) (h' : mid ≤ hi) :
    intRange lo mid ++ intRange mid hi = intRange lo hi := by
  have hlen : (hi - lo).toNat = (mid - lo).toNat + (hi - mid).toNat := by omega
  rw [intRange, intRange, intRange, hlen, List.range_add, List.map_append, List.map_map]
  refine congrArg _ (List.map_congr_left fun i _ => ?_)
  simp only [Function.comp_apply]
  omega

section
variable {dst : Bitmap} {paint : Px → Bool → Bool} {px : List Px} {b k : Nat}

theorem paintedBit_append (qx : List Px) (old : Bool) :
    paintedBit dst paint (px ++ qx) b k old = paintedBit dst paint qx b k (paintedBit dst paint px b k old) :=
  List.foldl_append

theorem paintedBit_of_unowned (hd : dst.format = .mono1) (h : ∀ p ∈ px, ¬ ownsBit dst p b k = true) (old : Bool) :
    paintedBit dst paint px b k old = old :=
  paintedBit_of_missed fun p hp => not_and_or.1 fun hown => h p hp ((ownsBit_mono1 hd).2 hown)

/-- A bit that one pixel of a list owns is painted by that pixel alone. -/
theorem paintedBit_of_owner (hd : dst.format = .mono1) {p : Px} (hnodup : px.Nodup) (hp : p ∈ px)
    (hown : ownsBit dst p b k = true) (honly : ∀ q ∈ px, ownsBit dst q b k = true → q = p) (old : Bool) :
    paintedBit dst paint px b k old = paint p old := by
  obtain ⟨before, after, rfl⟩ := List.append_of_mem hp
  obtain ⟨_, hafter, hbefore⟩ := List.nodup_append.1 hnodup
  have hnot : p ∉ after := (List.nodup_cons.1 hafter).1
  have hone (v : Bool) : paintedBit dst paint [p] b k v = paint p v := if_pos ((ownsBit_mono1 hd).1 hown)
  rw [← List.singleton_append, paintedBit_append, paintedBit_append, paintedBit_of_unowned hd, hone,
    paintedBit_of_unowned hd]
  · intro q hq hq'
    exact hbefore q hq p (List.mem_cons_self ..) (honly q (by simp [hq]) hq')
  · intro q hq hq'
    exact hnot (honly q (by simp [hq]) hq' ▸ hq)

end

/-! ### The columns of a destination word (20_memory R63, 40_primitives R135) -/

/-- The pixel that M1M1 visits at column `x` of row `y`: neither bitmap has row pointers. -/
def monoPx (a : BlitArgs) (y x : Int) : Px := ⟨x, y, srcX a x, srcY a y, 0, 0⟩

theorem nodup_map_monoPx (a : BlitArgs) (y lo hi : Int) : ((intRange lo hi).map (monoPx a y)).Nodup :=
  List.Nodup.map (fun _ _ h => congrArg Px.dx h) ((intRange_pairwise lo hi).imp fun h => h.ne)

section
variable {a : BlitArgs} {y : Int} {b k : Nat}

/-- Two columns of one word own two bits. -/
theorem column_eq_of_ownsBit (hd : a.dst.format = .mono1) {z z' : Int} (hword : z / 32 = z' / 32)
    (h : ownsBit a.dst (monoPx a y z) b k = true) (h' : ownsBit a.dst (monoPx a y z') b k = true) : z = z' := by
  obtain ⟨hbyte, hbit⟩ := (ownsBit_mono1 hd).1 h
  obtain ⟨hbyte', hbit'⟩ := (ownsBit_mono1 hd).1 h'
  simp only [monoPx] at hbyte hbit hbyte' hbit'
  obtain ⟨hplace, _, hlt, _⟩ := mono_place a.dst z y
  obtain ⟨hplace', _, hlt', _⟩ := mono_place a.dst z' y
  rw [← hbyte', ← hplace, ← hplace', hword] at hbyte
  have := pixAddr_add_inj (by omega) (by omega) hbyte
  omega

/-- Every bit of a word of a Mono1 row belongs to a column. -/
theorem exists_column_of_wordBytes (hd : a.dst.format = .mono1) {c : Int} (hk : k < 8)
    (h : b ∈ wordBytes (monoWordAddr a.dst c y)) : ∃ z, z / 32 = c ∧ ownsBit a.dst (monoPx a y z) b k = true := by
  obtain ⟨t, ht, rfl⟩ := mem_wordBytes.1 h
  refine ⟨32 * c + (8 * t + k : Nat), by omega, (ownsBit_mono1 hd).2 ⟨?_, ?_⟩⟩ <;> simp only [monoPx]
  · congr 1
    unfold monoByte monoWordAddr
    omega
  · omega

/-- A word of a Mono1 row read and written back, column by column: bit `z mod 32` of the word is the bit that column
`z` owns, and a bit that no column of the word owns is kept (20_memory R62, R63). -/
theorem bitAt_rewriteColumns {e : PixEnv} {m : Memory} {c : Int} {d : Word} (hd : a.dst.format = .mono1)
    (hr : readWord e m (monoWordAddr a.dst c y) = .ok d) (w : Word) :
    ∃ m', writeWord e m (monoWordAddr a.dst c y) w = .ok m'
      ∧ (∀ z b k, z / 32 = c → ownsBit a.dst (monoPx a y z) b k = true →
          bitAt e.epoch m' b k = w.getLsbD (z % 32).toNat ∧ bitAt e.epoch m b k = d.getLsbD (z % 32).toNat)
      ∧ (∀ b k, k < 8 → (∀ z, z / 32 = c → ¬ ownsBit a.dst (monoPx a y z) b k = true) →
          bitAt e.epoch m' b k = bitAt e.epoch m b k)
      ∧ ∀ b, b ∉ wordBytes (monoWordAddr a.dst c y) → peek e.epoch m' b = peek e.epoch m b := by
  obtain ⟨m', hwrite, hin, hout⟩ := rewriteWord hr w
  have hkept (b : Nat) (hb : b ∉ wordBytes (monoWordAddr a.dst c y)) : peek e.epoch m' b = peek e.epoch m b :=
    hout b fun t ht h => hb (h ▸ wordBytes_mem ht)
  refine ⟨m', hwrite, ?_, fun b k hk hno => ?_, hkept⟩
  · rintro z b k rfl hown
    obtain ⟨rfl, rfl⟩ := (ownsBit_mono1 hd).1 hown
    obtain ⟨hplace, hbit, hlt, hlt8, hsum⟩ := mono_place a.dst z y
    have := hin _ _ hlt hlt8
    rwa [hsum, hplace, hbit] at this
  · by_cases hb : b ∈ wordBytes (monoWordAddr a.dst c y)
    · obtain ⟨z, hz, hown⟩ := exists_column_of_wordBytes hd hk hb
      exact absurd hown (hno z hz)
    · rw [bitAt, hkept b hb]; rfl

end

/-! ### The source cursor (42_mono1_to_mono1 R192, 40_primitives R146) -/

section
variable {a : BlitArgs} {x n : Int}

theorem srcX_add (a : BlitArgs) (x n : Int) :
    srcX a (x + n) = a.src.bounds.x + (srcX a x - a.src.bounds.x + n) % a.src.bounds.w := by
  simp only [srcX, add_sub_cancel_left, Int.emod_add_emod]
  congr 2
  omega

theorem srcX_mem_bounds (hw : 0 < a.src.bounds.w) (x : Int) :
    a.src.bounds.x ≤ srcX a x ∧ srcX a x < a.src.bounds.x + a.src.bounds.w := by
  have h0 := Int.emod_nonneg (a.off.x + (x - a.rect.x)) hw.ne'
  have h1 := Int.emod_lt_of_pos (a.off.x + (x - a.rect.x)) hw
  unfold srcX
  omega

theorem srcX_add_of_lt (hw : 0 < a.src.bounds.w) (hn : 0 ≤ n)
    (h : srcX a x + n < a.src.bounds.x + a.src.bounds.w) : srcX a (x + n) = srcX a x + n := by
  have hlo := (srcX_mem_bounds hw x).1
  rw [srcX_add, Int.emod_eq_of_lt (by omega) (by omega)]
  omega

/-- The cursor wraps at the end of the source row. -/
theorem srcX_add_of_eq (h : srcX a x + n = a.src.bounds.x + a.src.bounds.w) : srcX a (x + n) = a.src.bounds.x := by
  rw [srcX_add, show srcX a x - a.src.bounds.x + n = a.src.bounds.w by omega, Int.emod_self, Int.add_zero]

/-- A unit of `n` columns from column `x` on ends with neither word and not beyond the source row
(42_mono1_to_mono1 R190). -/
structure FitsUnit (a : BlitArgs) (x n : Int) : Prop where
  pos : 0 < n
  dstWord : x % 32 + n ≤ 32
  srcWord : srcX a x % 32 + n ≤ 32
  srcRow : srcX a x + n ≤ a.src.bounds.x + a.src.bounds.w

theorem fitsUnit_unitSize (hw : 0 < a.src.bounds.w) {hi : Int} (hx : x < hi) :
    FitsUnit a x (unitSize a (x % 32) (srcX a x) (hi - x)) ∧ unitSize a (x % 32) (srcX a x) (hi - x) ≤ hi - x := by
  obtain ⟨_, hlt⟩ := srcX_mem_bounds hw x
  unfold unitSize
  exact ⟨⟨by omega, by omega, by omega, by omega⟩, by omega⟩

variable (hw : 0 < a.src.bounds.w) (h : FitsUnit a x n) {z : Int} (hz : z ∈ intRange x (x + n))
include h hz

theorem FitsUnit.dst_word : z / 32 = x / 32 := by
  obtain ⟨_, _⟩ := mem_intRange.1 hz
  have := h.dstWord
  omega

include hw

theorem FitsUnit.srcX_eq : srcX a z = srcX a x + (z - x) := by
  obtain ⟨_, _⟩ := mem_intRange.1 hz
  have hrow := h.srcRow
  have := srcX_add_of_lt (a := a) (x := x) (n := z - x) hw (by omega) (by omega)
  rwa [add_sub_cancel] at this

theorem FitsUnit.src_word : srcX a z / 32 = srcX a x / 32 := by
  obtain ⟨_, _⟩ := mem_intRange.1 hz
  have hword := h.srcWord
  rw [h.srcX_eq hw hz]
  omega

/-- The rotation of a unit lines up each of its columns (42_mono1_to_mono1 R191). -/
theorem FitsUnit.rotated_bit (w : Word) :
    (rotl32 w (alignRotation (x % 32) (srcX a x))).getLsbD (z % 32).toNat = w.getLsbD (srcX a z % 32).toNat := by
  have hcol := h.srcX_eq hw hz
  rw [← getLsbD_rotl32_align w (j := (z % 32).toNat) (k := (srcX a z % 32).toNat) (by omega) (by omega), alignRotation]
  congr 3
  omega

end

/-! ### One unit paints its pixels (42_mono1_to_mono1 R190) -/

/-- A run over PIXMEM that, wherever the source reads as in `s`, succeeds, keeps the source so, and leaves each bit as
the pixels `px`, painting one after another with `g`, make it (42_mono1_to_mono1 R181). -/
def PaintsPixels (g : Bool → Bool → Bool) (s : State) (a : BlitArgs) (px : List Px)
    (run : Memory → Except Stop Memory) : Prop :=
  ∀ m, sourceKept s a m → ∃ m', run m = .ok m' ∧ sourceKept s a m'
    ∧ ∀ b k, k < 8 → bitAt s.epoch m' b k
        = paintedBit a.dst (fun p d => g d (monoPixel s a.src p.sx p.sy)) px b k (bitAt s.epoch m b k)

section
variable {g : Bool → Bool → Bool} {s : State} {a : BlitArgs}

theorem paintsPixels_nil : PaintsPixels g s a [] .ok := fun m hm => ⟨m, rfl, hm, fun _ _ _ => rfl⟩

theorem PaintsPixels.append {px qx : List Px} {f f' : Memory → Except Stop Memory} (h : PaintsPixels g s a px f)
    (h' : PaintsPixels g s a qx f') : PaintsPixels g s a (px ++ qx) fun m => f m >>= f' := by
  intro m hm
  obtain ⟨m1, hrun, hm1, hbits⟩ := h m hm
  obtain ⟨m2, hrun', hm2, hbits'⟩ := h' m1 hm1
  exact ⟨m2, except_bind_eq_ok.2 ⟨m1, hrun, hrun'⟩, hm2,
    fun b k hk => by rw [hbits' b k hk, hbits b k hk, paintedBit_append]⟩

/-- One unit of the word procedure, by its first destination column (42_mono1_to_mono1 R190). -/
def m1m1Unit (form : WordForm) (e : PixEnv) (a : BlitArgs) (y x n : Int) (m : Memory) : Except Stop Memory := do
  let w ← readWord e m (monoWordAddr a.src (srcX a x / 32) (srcY a y))
  let d ← readWord e m (monoWordAddr a.dst (x / 32) y)
  writeWord e m (monoWordAddr a.dst (x / 32) y)
    (form d (rotl32 w (alignRotation (x % 32) (srcX a x))) (maskBits n.toNat (x % 32).toNat))

variable {form : WordForm} {x n y : Int} {m : Memory}

/-- A word form under the mask of a unit changes its columns alone (42_mono1_to_mono1 R182). -/
theorem FitsUnit.form_bit (hg : formIs form g) (h : FitsUnit a x n) {z : Int} (hz : z / 32 = x / 32) (d v : Word) :
    (form d v (maskBits n.toNat (x % 32).toNat)).getLsbD (z % 32).toNat
      = if z ∈ intRange x (x + n) then g (d.getLsbD (z % 32).toNat) (v.getLsbD (z % 32).toNat)
        else d.getLsbD (z % 32).toNat := by
  have hpos := h.pos
  rw [hg d v _ _ (by omega), getLsbD_maskBits (by omega), ← Bool.decide_and]
  refine if_congr ?_ rfl rfl
  rw [decide_eq_true_eq, mem_intRange]
  omega

variable (ht : touchable s a = true) (hd : a.dst.format = .mono1) (hs : a.src.format = .mono1)
  (hw : 0 < a.src.bounds.w) (h : FitsUnit a x n)
  (hvis : ∀ z ∈ intRange x (x + n), monoPx a y z ∈ visited s a)
include ht hs hw h hvis

/-- The source word of a unit holds the source pixels of all its columns. -/
theorem FitsUnit.readWord_source (hm : sourceKept s a m) :
    ∃ w, readWord (pixEnv s) m (monoWordAddr a.src (srcX a x / 32) (srcY a y)) = .ok w
      ∧ ∀ z ∈ intRange x (x + n), w.getLsbD (srcX a z % 32).toNat = monoPixel s a.src (srcX a z) (srcY a y) := by
  have hfirst : x ∈ intRange x (x + n) := mem_intRange.2 ⟨le_rfl, by have := h.pos; omega⟩
  obtain ⟨w, hread, _⟩ := Machine.readWord_source ht (hvis x hfirst) hs hm
  refine ⟨w, hread, fun z hz => ?_⟩
  obtain ⟨w', hread', hbit⟩ := Machine.readWord_source ht (hvis z hz) hs hm
  simp only [monoPx] at hread hread' hbit
  rw [h.src_word hw hz, hread] at hread'
  cases hread'
  exact hbit

include hd

/-- A unit is its pixels: each column of the unit owns one bit of the word, and the mask leaves the others. -/
theorem FitsUnit.paintsPixels (hg : formIs form g) :
    PaintsPixels g s a ((intRange x (x + n)).map (monoPx a y)) (m1m1Unit form (pixEnv s) a y x n) := by
  intro m hm
  have hfirst : x ∈ intRange x (x + n) := mem_intRange.2 ⟨le_rfl, by have := h.pos; omega⟩
  have haddr : dstAddr a.dst (monoPx a y x) = monoWordAddr a.dst (x / 32) y := if_pos hd
  obtain ⟨w, hsrc, hpixel⟩ := h.readWord_source ht hs hw hvis hm
  obtain ⟨d, hdst⟩ := exists_readWord_dst ht (hvis x hfirst) hd m
  rw [haddr] at hdst
  obtain ⟨m', hwrite, hcolumn, hother, hkept⟩ := bitAt_rewriteColumns hd hdst
    (form d (rotl32 w (alignRotation (x % 32) (srcX a x))) (maskBits n.toNat (x % 32).toNat))
  refine ⟨m', ?_, fun b hb => ?_, fun b k hk => ?_⟩
  · simp only [m1m1Unit, hsrc, hdst, hwrite, bind, Except.bind]
  · refine (hkept b fun hmem => ?_).trans (hm b hb)
    exact not_sourceByte (apart_of_touchable ht) (hvis x hfirst) (by rwa [dstBytes_mono1 hd, haddr]) hb
  by_cases hown : ∃ z, z / 32 = x / 32 ∧ ownsBit a.dst (monoPx a y z) b k = true
  · obtain ⟨z, hz, hown⟩ := hown
    obtain ⟨hnew, hold⟩ := hcolumn z b k hz hown
    have honly (z' : Int) (hz' : z' ∈ intRange x (x + n)) (hown' : ownsBit a.dst (monoPx a y z') b k = true) : z' = z :=
      column_eq_of_ownsBit hd ((h.dst_word hz').trans hz.symm) hown' hown
    rw [show s.epoch = (pixEnv s).epoch from rfl, hnew, hold, h.form_bit hg hz]
    split
    · rename_i hin
      rw [h.rotated_bit hw hin, hpixel z hin, paintedBit_of_owner hd (nodup_map_monoPx a y x (x + n))
        (List.mem_map_of_mem hin) hown (List.forall_mem_map.2 fun z' hz' hown' => by rw [honly z' hz' hown'])]
      rfl
    · rename_i hout
      rw [paintedBit_of_unowned hd (List.forall_mem_map.2 fun z' hz' hown' => hout (honly z' hz' hown' ▸ hz'))]
  · have hnone (z : Int) (hz : z / 32 = x / 32) : ¬ ownsBit a.dst (monoPx a y z) b k = true :=
      fun hz' => hown ⟨z, hz, hz'⟩
    rw [paintedBit_of_unowned hd (List.forall_mem_map.2 fun z hz => hnone z (h.dst_word hz))]
    exact hother b k hk hnone

end

end Sys2Proof.Machine
end

section
/-! PROOFS. The word procedure of M1M1 leaves what its pixels leave (42_mono1_to_mono1 R181, R190, R192). -/

namespace Sys2Proof.Machine

section
variable {form : WordForm} {g : Bool → Bool → Bool} {s : State} {a : BlitArgs} {y : Int} {e : PixEnv}

/-! ### The pixels of a row (42_mono1_to_mono1 R181) -/

/-- A row of M1M1 that runs visits every column of the rectangle (42_mono1_to_mono1 R181). -/
theorem rowPixels_eq_map_monoPx {tab : List RowEntry} (hd : a.dst.format = .mono1)
    (hs : a.src.format = .mono1) {px : List Px} (h : rowPixels tab a y = .ok px) :
    px = (intRange a.rect.x (a.rect.x + a.rect.w)).map (monoPx a y) := by
  obtain ⟨d, r, hdst, hsrc, hrow⟩ := rowPixels_eq_ok h
  rw [dstRow, if_pos hd] at hdst
  rw [srcRow, if_neg (by rw [hs]; nofun), if_neg (by rw [hs]; nofun)] at hsrc
  cases hdst
  cases hsrc
  obtain ⟨hle, rfl⟩ | ⟨_, _, rfl⟩ := hrow
  · rw [intRange_of_le hle]; rfl
  · have hpixel : pixelAt a y ⟨0, a.rect.x, a.rect.x + a.rect.w⟩ none = some ∘ monoPx a y := by
      funext x
      exact pixelAt_eq_some.2 ⟨by rw [hs]; rfl, rfl⟩
    rw [hpixel, List.filterMap_eq_map]

/-! ### The units of a row (42_mono1_to_mono1 R190, R192) -/

theorem m1m1Units_of_le {c dstShift srcCol remaining : Int} {fuel : Nat} (h : remaining ≤ 0) :
    m1m1Units form e a y fuel c dstShift srcCol remaining = .ok := by
  funext m
  cases fuel with
  | zero => rfl
  | succ fuel => rw [m1m1Units, if_pos h]

theorem m1m1UnitRows_of_no_column (hw : a.rect.w ≤ 0) (rows : List Int) (m : Memory) :
    m1m1UnitRows form e a rows m = .ok m := by
  induction rows with
  | nil => rfl
  | cons y rest ih =>
    rw [m1m1UnitRows, m1m1Units_of_le hw]
    exact ih

/-- The cursors of the word procedure at column `x` are `x div 32`, `x mod 32` and `srcX x`: so they stand after each
unit (42_mono1_to_mono1 R192). -/
theorem m1m1Units_succ (hw : 0 < a.src.bounds.w) {x hi : Int} (hx : x < hi) (fuel : Nat) (m : Memory) :
    let n := unitSize a (x % 32) (srcX a x) (hi - x)
    m1m1Units form e a y (fuel + 1) (x / 32) (x % 32) (srcX a x) (hi - x) m
      = m1m1Unit form e a y x n m >>=
          m1m1Units form e a y fuel ((x + n) / 32) ((x + n) % 32) (srcX a (x + n)) (hi - (x + n)) := by
  intro n
  obtain ⟨⟨hpos, hdst, _, hrow⟩, _⟩ := fitsUnit_unitSize (a := a) hw hx
  have hshift : (x % 32 + n) % 32 = (x + n) % 32 := Int.emod_add_emod ..
  have hword : (if (x + n) % 32 = 0 then x / 32 + 1 else x / 32) = (x + n) / 32 := by
    split <;> omega
  have hsrc : (if srcX a x + n = a.src.bounds.x + a.src.bounds.w then a.src.bounds.x else srcX a x + n)
      = srcX a (x + n) := by
    split
    · exact (srcX_add_of_eq ‹_›).symm
    · exact (srcX_add_of_lt hw (by omega) (by omega)).symm
  have hrem : hi - x - n = hi - (x + n) := by omega
  rw [m1m1Units, if_neg (by omega)]
  simp only [show unitSize a (x % 32) (srcX a x) (hi - x) = n from rfl, hshift, hword, hsrc, hrem, m1m1Unit, bind_assoc]

variable (hg : formIs form g) (ht : touchable s a = true) (hd : a.dst.format = .mono1) (hs : a.src.format = .mono1)
include hg ht hd hs

/-- The units from column `x` on paint the pixels from `x` on, when there is fuel for one unit per pixel. -/
theorem m1m1Units_paints (hw : 0 < a.src.bounds.w) {hi : Int} {fuel : Nat} {x : Int} (hfuel : (hi - x).toNat ≤ fuel)
    (hvis : ∀ z ∈ intRange x hi, monoPx a y z ∈ visited s a) :
    PaintsPixels g s a ((intRange x hi).map (monoPx a y))
      (m1m1Units form (pixEnv s) a y fuel (x / 32) (x % 32) (srcX a x) (hi - x)) := by
  induction fuel generalizing x with
  | zero =>
    rw [intRange_of_le (by omega), m1m1Units_of_le (by omega)]
    exact paintsPixels_nil
  | succ fuel ih =>
    obtain hle | hlt := le_or_gt hi x
    · rw [intRange_of_le hle, m1m1Units_of_le (by omega)]
      exact paintsPixels_nil
    · obtain ⟨hfits, hn⟩ := fitsUnit_unitSize (a := a) hw hlt
      rw [funext (m1m1Units_succ hw hlt fuel)]
      generalize unitSize a (x % 32) (srcX a x) (hi - x) = n at hfits hn
      have hpos := hfits.pos
      have hsplit : intRange x (x + n) ++ intRange (x + n) hi = intRange x hi := intRange_append (by omega) (by omega)
      rw [← hsplit] at hvis
      rw [← hsplit, List.map_append]
      exact (hfits.paintsPixels ht hd hs hw (fun z hz => hvis z (List.mem_append_left _ hz)) hg).append
        (ih (by omega) fun z hz => hvis z (List.mem_append_right _ hz))

/-! ### The rows of the rectangle (42_mono1_to_mono1 R190) -/

theorem m1m1UnitRows_paints (hw : 0 < a.rect.w) {rows : List Int}
    (hstop : (planRows s.cfg.rowtab a rows).stop = none)
    (hvis : ∀ p ∈ (planRows s.cfg.rowtab a rows).pixels, p ∈ visited s a) :
    PaintsPixels g s a (planRows s.cfg.rowtab a rows).pixels (m1m1UnitRows form (pixEnv s) a rows) := by
  induction rows with
  | nil => exact paintsPixels_nil
  | cons y rest ih =>
    rw [planRows_stop_none, List.forall_mem_cons] at hstop
    obtain ⟨⟨px, hpx⟩, hrest⟩ := hstop
    have hpixels : (planRows s.cfg.rowtab a (y :: rest)).pixels = px ++ (planRows s.cfg.rowtab a rest).pixels := by
      simp only [planRows, hpx]
    rw [hpixels] at hvis ⊢
    refine PaintsPixels.append ?_ (ih (planRows_stop_none.2 hrest) fun p hp => hvis p (List.mem_append_right _ hp))
    have hrow (z : Int) (hz : z ∈ intRange a.rect.x (a.rect.x + a.rect.w)) : monoPx a y z ∈ visited s a :=
      hvis _ (List.mem_append_left _ (rowPixels_eq_map_monoPx hd hs hpx ▸ List.mem_map_of_mem hz))
    obtain ⟨_, _, _, _, _, _, _, ⟨hoff, hoff', _⟩, _⟩ :=
      mem_visited (hrow a.rect.x (mem_intRange.2 ⟨le_rfl, by omega⟩)) (.inl hd)
    have hfirst : srcX a a.rect.x = a.src.bounds.x + a.off.x := by
      rw [srcX, Int.sub_self, Int.add_zero, Int.emod_eq_of_lt hoff hoff']
    have hpaints := m1m1Units_paints hg ht hd hs (by omega) (fuel := a.rect.w.toNat) (by omega) hrow
    rwa [hfirst, add_sub_cancel_left, ← rowPixels_eq_map_monoPx hd hs hpx] at hpaints

/-- The word procedure over a rectangle whose rows all run paints the visited pixels (42_mono1_to_mono1 R181, R190). -/
theorem m1m1Words_paints (hstop : (blitPlan s.cfg.rowtab a).stop = none) :
    PaintsPixels g s a (visited s a) (m1m1Words form (pixEnv s) a) := by
  obtain ⟨hempty, hplan⟩ | ⟨hw, _, hplan⟩ := blitPlan_eq (tab := s.cfg.rowtab) (a := a)
  · have hrun : m1m1Words form (pixEnv s) a = .ok := by
      funext m
      simp only [isEmptyRect, Bool.or_eq_true, decide_eq_true_eq] at hempty
      obtain hw | hh := hempty
      · exact m1m1UnitRows_of_no_column hw _ m
      · rw [m1m1Words, intRange_of_le (by unfold maxY; omega)]; rfl
    rw [hrun, visited, hplan]
    exact paintsPixels_nil
  · have hvisited : visited s a = (planRows s.cfg.rowtab a (intRange a.rect.y (maxY a.rect))).pixels := blitPlan_pixels
    rw [hplan] at hstop
    rw [hvisited]
    exact m1m1UnitRows_paints hg ht hd hs hw hstop fun p hp => hvisited ▸ hp

end

/-- Each of the six rows has a form that works bit by bit (42_mono1_to_mono1 R182). -/
theorem isMono1Row_of_mem {c : Instr × WordForm}
    (hc : c ∈ ([(.m1m1Assign, m1m1AssignForm), (.m1m1AssignInverted, m1m1AssignInvertedForm), (.m1m1Or, m1m1OrForm),
      (.m1m1And, m1m1AndForm), (.m1m1Clear, m1m1ClearForm), (.m1m1Set, m1m1SetForm)] : List (Instr × WordForm))) :
    IsMono1Row c.1 c.2 ∧ ∃ g, formIs c.2 g := by
  simp only [List.mem_cons, List.not_mem_nil, or_false] at hc
  obtain rfl | rfl | rfl | rfl | rfl | rfl := hc
  · exact ⟨m1m1Assign_isMono1Row, _, m1m1AssignForm_is⟩
  · exact ⟨m1m1AssignInverted_isMono1Row, _, m1m1AssignInvertedForm_is⟩
  · exact ⟨m1m1Or_isMono1Row, _, m1m1OrForm_is⟩
  · exact ⟨m1m1And_isMono1Row, _, m1m1AndForm_is⟩
  · exact ⟨m1m1Clear_isMono1Row, _, m1m1ClearForm_is⟩
  · exact ⟨m1m1Set_isMono1Row, _, m1m1SetForm_is⟩

/-- Settles O32: the units and the pixels paint the same bits, so every byte reads the same. -/
theorem wordProcedureAgreesWithPixels : Obligations.WordProcedureAgreesWithPixels := by
  intro s a hacc hsrc hdst hruns c hc
  obtain ⟨hrow, g, hg⟩ := isMono1Row_of_mem hc
  obtain ⟨hstop, ht⟩ := runs_iff.1 hruns
  obtain ⟨m, hwords, _, hbits⟩ := m1m1Words_paints (a := a) hg ht rfl rfl hstop s.mem fun _ _ => rfl
  obtain ⟨m', hexec, hbits', _⟩ := hrow.paintsBits hg hacc hsrc hdst hruns
  exact ⟨m, m', hwords, hexec, fun b => peek_eq_of_bitAt_eq fun k hk => (hbits b k hk).trans (hbits' b k hk).symm⟩

end Sys2Proof.Machine
end

section
/-! PROOFS. The rows of PALM1: the permitted ones paint dithered bits, the others report their operator
(43_palette_to_mono1 R200 to R212). -/

namespace Sys2Proof.Machine

/-! ### The rows, by operator (43_palette_to_mono1 R205 to R210) -/

/-- The routine of the PALM1 rows, `P1` or `P2` by the source format (30_encoding R105). -/
def IsPalm1 (r : Routine) (f : PixelFormat) : Prop := (r = .palm1P1 ∨ r = .palm1P2) ∧ r.selects f .mono1

theorem isPalm1_p1 : IsPalm1 .palm1P1 .palette1 := ⟨.inl rfl, rfl, rfl⟩

theorem isPalm1_p2 : IsPalm1 .palm1P2 .palette2 := ⟨.inr rfl, rfl, rfl⟩

theorem IsPalm1.isPaletteFormat {r : Routine} {f : PixelFormat} (h : IsPalm1 r f) : isPaletteFormat f = true := by
  obtain ⟨rfl | rfl, rfl, _⟩ := h <;> rfl

/-- Step (1) of the table of a permitted row is the recolouring of its operator (43_palette_to_mono1 R202). -/
theorem runPalm1P1_recolours {op : CompOp} (h : permittedFromPalette op = true) (lib : ColorLib) (a : BlitArgs)
    (s : State) : runPalm1P1 lib a s op = palm1 lib (recoloured lib op a.tint) a s := by
  cases op with
  | assign | set | tint | tintLuminance => rfl
  | assignInverted | or | and | clear => cases h

/-- A PALM1 row called by key, tint operators too, is its routine's row. -/
theorem exec_palm1Instr {s : State} {r : Routine} {f : PixelFormat} (hr : IsPalm1 r f) (hacc : accepting s = true)
    (op : CompOp) : exec (r.instr op .mono1 f) s = runPalm1P1 engineLib (rowArgs s .mono1 f) s op := by
  have hrow : exec (r.instr op .mono1 f) s
      = whenAccepting s fun s => runPalm1P1 engineLib (rowArgs s .mono1 f) s op := by
    obtain ⟨rfl | rfl, rfl, _⟩ := hr
    · cases op <;> rfl
    · cases op <;> rfl
  rw [hrow, whenAccepting_of_accepting hacc]

/-! ### The permitted rows (43_palette_to_mono1 R202 to R208, R212) -/

theorem palm1_paintsBits {s : State} {r : Routine} {f : PixelFormat} (hr : IsPalm1 r f) (hacc : accepting s = true)
    (hpal : s.srcPal ≠ 0) (op : CompOp) (hop : permittedFromPalette op = true)
    (hal : isAligned (rowArgs s .mono1 f).dst = true) (hruns : runs s (rowArgs s .mono1 f) = true) :
    paintsBits (r.instr op .mono1 f) (rowArgs s .mono1 f)
      (fun p d => greyedBit engineLib op (rowArgs s .mono1 f).tint
        (palettePixel s (rowArgs s .mono1 f).src p.sx p.sy) p.dx p.dy d) s := by
  obtain ⟨table, m, htable, hm, hpaint⟩ := palm1_painted (lib := engineLib)
    (recolor := recoloured engineLib op (rowArgs s .mono1 f).tint) (runs_iff.1 hruns).2 rfl hr.isPaletteFormat
  refine ⟨m, ?_, hpaint⟩
  rw [exec_palm1Instr hr hacc, runPalm1P1_recolours hop, palm1, withPalette_of_present (palette_present hpal _ _),
    withAlignment_of_aligned hal]
  simp only [htable]
  exact runBlit_ok hruns hm

/-- Settles O34: each permitted row is the loop over the table of its operator's recolouring. -/
theorem paletteRowsDitherTheirBits : Obligations.PaletteRowsDitherTheirBits := by
  intro s hacc hpal
  simp only [List.forall_mem_cons, List.not_mem_nil, false_imp_iff, implies_true, and_true]
  have p1 := palm1_paintsBits isPalm1_p1 hacc hpal
  have p2 := palm1_paintsBits isPalm1_p2 hacc hpal
  exact ⟨p1 .assign rfl, p2 .assign rfl, p1 .set rfl, p2 .set rfl, p1 .tint rfl, p2 .tint rfl,
    p1 .tintLuminance rfl, p2 .tintLuminance rfl⟩

/-! ### The rows whose operator is not permitted (43_palette_to_mono1 R201, R210, 60_exceptions R314) -/

section
variable {s : State} {a : BlitArgs} {look : Px → Memory → Except Stop Unit}

/-- The rejection of an operator, with a pixel visited whose source can be looked at (60_exceptions R314). -/
theorem rejectBlit_of_visited (hv : visited s a ≠ [])
    (hlook : ∀ p ∈ (visited s a).head?, look p s.mem = .ok ()) :
    rejectBlit look a s = .next (endedError s 3 0x08) := by
  unfold visited at hv hlook
  cases hpx : (blitPlan s.cfg.rowtab a).pixels with
  | nil => exact absurd hpx hv
  | cons q rest =>
    have hq : look q s.mem = .ok () := hlook q (by rw [hpx]; rfl)
    simp only [rejectBlit, hpx, hq, raiseError_eq]
    rfl

/-- The rejection of an operator, with no pixel visited and the walk at its end (60_exceptions R314). -/
theorem rejectBlit_of_unvisited (hv : visited s a = []) (hstop : (blitPlan s.cfg.rowtab a).stop = none) :
    rejectBlit look a s = .next (endedOk s s.mem) := by
  unfold visited at hv
  simp only [rejectBlit, hv, hstop, endRows, endOk_eq]

theorem readable_iff : readable s a = true ↔
    backedBytes s (paletteBytes a.src) = true
      ∧ ∀ p ∈ (visited s a).head?, backedBytes s (srcBytes a.src p) = true := by
  simp only [readable, Bool.and_eq_true, Option.all_eq_true, Option.mem_def]

theorem palm1Look_ok {p : Px} (hs : isPaletteFormat a.src.format = true)
    (hb : backedBytes s (srcBytes a.src p) = true) : palm1Look (pixEnv s) a p s.mem = .ok () := by
  have hi := palIndex_source (m := s.mem) hs (fun _ => backed_of_backedBytes hb) fun _ _ => rfl
  simp only [palm1Look, hi, bind, Except.bind, pure, Except.pure]

/-- PALM1 past its entry checks and with its palette read: the rejection over the plan (43_palette_to_mono1 R210). -/
theorem palm1Rejected_eq_rejectBlit {lib : ColorLib} (hs : isPaletteFormat a.src.format = true)
    (hp : a.src.palette ≠ 0) (hal : isAligned a.dst = true) (hb : backedBytes s (paletteBytes a.src) = true) :
    palm1Rejected lib a s = rejectBlit (palm1Look (pixEnv s) a) a s := by
  obtain ⟨table, htable, _⟩ := ditherTable_of_backed (lib := lib) (recolor := id) (i := 0) hs
    (fun _ hx => backed_of_backedBytes hb hx) (Nat.zero_add _).le
  rw [palm1Rejected, withPalette_of_present hp, withAlignment_of_aligned hal]
  simp only [htable]

end

theorem palm1_reports {s : State} {r : Routine} {f : PixelFormat} (hr : IsPalm1 r f) (hacc : accepting s = true)
    (hpal : s.srcPal ≠ 0) (op : CompOp) (hop : permittedFromPalette op = false)
    (hal : isAligned (rowArgs s .mono1 f).dst = true) (hread : readable s (rowArgs s .mono1 f) = true) :
    (visited s (rowArgs s .mono1 f) ≠ [] → exec (r.instr op .mono1 f) s = .next (endedError s 3 0x08))
      ∧ (visited s (rowArgs s .mono1 f) = [] → (blitPlan s.cfg.rowtab (rowArgs s .mono1 f)).stop = none →
        exec (r.instr op .mono1 f) s = .next (endedOk s s.mem)) := by
  obtain ⟨hpalette, hfirst⟩ := readable_iff.1 hread
  rw [exec_palm1Instr hr hacc, runPalm1P1_rejected hop,
    palm1Rejected_eq_rejectBlit hr.isPaletteFormat (palette_present hpal _ _) hal hpalette]
  exact ⟨fun hv => rejectBlit_of_visited hv fun p hp => palm1Look_ok hr.isPaletteFormat (hfirst p hp),
    rejectBlit_of_unvisited⟩

/-- Settles O35: each of the eight rows is the rejection, after the palette and the first pixel's source are read. -/
theorem rejectedPaletteToMono1RowsReport : Obligations.RejectedPaletteToMono1RowsReport := by
  intro s hacc hpal
  simp only [List.forall_mem_cons, List.not_mem_nil, false_imp_iff, implies_true, and_true]
  have p1 := palm1_reports isPalm1_p1 hacc hpal
  have p2 := palm1_reports isPalm1_p2 hacc hpal
  exact ⟨p1 .assignInverted rfl, p2 .assignInverted rfl, p1 .or rfl, p2 .or rfl, p1 .and rfl, p2 .and rfl,
    p1 .clear rfl, p2 .clear rfl⟩

end Sys2Proof.Machine
end

section
/-! PROOFS. The rows of PALC8: the permitted ones combine the palette colour with the destination byte, the others
report their operator or end as their walk ends (44_palette_to_color8 R220 to R228). -/

namespace Sys2Proof.Machine

/-! ### The rows, by operator (44_palette_to_color8 R223 to R228) -/

/-- The routine of the PALC8 rows, `P1` or `P24` by the source format (30_encoding R105). -/
def IsPalc8 (r : Routine) (d f : PixelFormat) : Prop := (r = .palc8P1 ∨ r = .palc8P24) ∧ r.selects f d

section
variable {r : Routine} {d f : PixelFormat}

theorem isPalc8_p1 (hd : d.isEightBit = true) : IsPalc8 .palc8P1 d .palette1 := ⟨.inl rfl, rfl, hd⟩

theorem isPalc8_p24 (hd : d.isEightBit = true) (hf : f.isPalette24 = true) : IsPalc8 .palc8P24 d f :=
  ⟨.inr rfl, hf, hd⟩

theorem IsPalc8.takes (h : IsPalc8 r d f) : isPaletteFormat f = true ∧ d.isEightBit = true := by
  obtain ⟨rfl | rfl, hsel⟩ := h <;> exact takes_of_dispatchPair (dispatchPair_of_selects hsel)

/-- A PALC8 row called by key is its routine's row, of which both halves of the table are one. -/
theorem exec_palc8Instr {s : State} (hr : IsPalc8 r d f) (hacc : accepting s = true) (op : CompOp) :
    exec (r.instr op d f) s = runPalc8P1 engineLib (rowArgs s d f) s op := by
  rw [exec_instr_of_accepting hacc hr.takes.2 hr.2]
  obtain ⟨rfl | rfl, _⟩ := hr
  · rfl
  · exact runPalc8P24_eq engineLib _ s op

/-! ### The permitted rows (44_palette_to_color8 R221 to R227) -/

theorem palc8_paintsBytes {s : State} (hr : IsPalc8 r d f) (hacc : accepting s = true) (hpal : s.srcPal ≠ 0)
    (op : CompOp) (hop : permittedFromPalette op = true) (hruns : runs s (rowArgs s d f) = true) :
    paintsBytes (r.instr op d f) (rowArgs s d f)
      (fun p v => combinedByte engineLib op (rowArgs s d f).tint (palettePixel s (rowArgs s d f).src p.sx p.sy) v)
      s := by
  obtain ⟨hf, hd⟩ := hr.takes
  obtain ⟨combine, hpaints, hrow⟩ := runPalc8P1_combines hop engineLib (rowArgs s d f) s
  obtain ⟨m, hm, hbytes⟩ := palc8_painted hpaints (runs_iff.1 hruns).2 hd hf
  refine ⟨m, ?_, hbytes⟩
  rw [exec_palc8Instr hr hacc, hrow, palc8, withPalette_of_present (palette_present hpal _ _)]
  exact runBlit_ok hruns hm

end

/-- Settles O36: each permitted row is the loop that combines by its operator. -/
theorem paletteRowsCombineTheirBytes : Obligations.PaletteRowsCombineTheirBytes := by
  intro s d f hd hf hacc hpal
  simp only [List.forall_mem_cons, List.not_mem_nil, false_imp_iff, implies_true, and_true]
  have p1 := palc8_paintsBytes (isPalc8_p1 hd) hacc hpal
  have p24 := palc8_paintsBytes (isPalc8_p24 hd hf) hacc hpal
  exact ⟨p1 .assign rfl, p24 .assign rfl, p1 .set rfl, p24 .set rfl, p1 .tint rfl, p24 .tint rfl,
    p1 .tintLuminance rfl, p24 .tintLuminance rfl⟩

/-! ### The rows whose operator is not permitted (44_palette_to_color8 R222, R228, 60_exceptions R314, R320) -/

section
variable {s : State} {a : BlitArgs}

/-- The rejection of an operator, with no pixel visited before a row that the table lacks (60_exceptions R320). -/
theorem rejectBlit_of_offTable {look : Px → Memory → Except Stop Unit} (hv : visited s a = [])
    (hstop : (blitPlan s.cfg.rowtab a).stop = some (.fatal .rowIndexOutOfBounds)) :
    rejectBlit look a s = .next (endedHalt s s.mem 1) := by
  unfold visited at hv
  simp only [rejectBlit, hv, hstop, endRows, raiseFatal_eq]
  rfl

/-- Where the palette and the pixel's source are backed, both reads before the rejection succeed (R228). -/
theorem palc8Look_ok {p : Px} (hs : isPaletteFormat a.src.format = true)
    (hpal : backedBytes s (paletteBytes a.src) = true) (hsrc : backedBytes s (srcBytes a.src p) = true) :
    palc8Look (pixEnv s) a p s.mem = .ok () := by
  have hindex := palIndex_source (m := s.mem) hs (fun _ => backed_of_backedBytes hsrc) fun _ _ => rfl
  have hcolor := palColor_source (m := s.mem) hs (fun _ => backed_of_backedBytes hpal) (fun _ _ => rfl)
    (indexPixel_lt s a.src p.sx p.sy)
  simp only [palc8Look, hindex, hcolor, bind, Except.bind, pure, Except.pure]

end

theorem palc8_reports {s : State} {r : Routine} {d f : PixelFormat} (hr : IsPalc8 r d f) (hacc : accepting s = true)
    (hpal : s.srcPal ≠ 0) (op : CompOp) (hop : permittedFromPalette op = false)
    (hread : readable s (rowArgs s d f) = true) :
    (visited s (rowArgs s d f) ≠ [] → exec (r.instr op d f) s = .next (endedError s 3 0x08))
      ∧ (visited s (rowArgs s d f) = [] → (blitPlan s.cfg.rowtab (rowArgs s d f)).stop = none →
        exec (r.instr op d f) s = .next (endedOk s s.mem))
      ∧ (visited s (rowArgs s d f) = [] →
        (blitPlan s.cfg.rowtab (rowArgs s d f)).stop = some (.fatal .rowIndexOutOfBounds) →
        exec (r.instr op d f) s = .next (endedHalt s s.mem 1)) := by
  obtain ⟨hpalette, hfirst⟩ := readable_iff.1 hread
  rw [exec_palc8Instr hr hacc, runPalc8P1_rejected hop, palc8Rejected,
    withPalette_of_present (palette_present hpal _ _)]
  exact ⟨fun hv => rejectBlit_of_visited hv fun p hp => palc8Look_ok hr.takes.1 hpalette (hfirst p hp),
    rejectBlit_of_unvisited, rejectBlit_of_offTable⟩

/-- Settles O37: each of the eight rows is the rejection, after the first pixel's index and palette entry are read. -/
theorem rejectedPaletteToColor8RowsReport : Obligations.RejectedPaletteToColor8RowsReport := by
  intro s d f hd hf hacc hpal
  simp only [List.forall_mem_cons, List.not_mem_nil, false_imp_iff, implies_true, and_true]
  have p1 := palc8_reports (isPalc8_p1 hd) hacc hpal
  have p24 := palc8_reports (isPalc8_p24 hd hf) hacc hpal
  exact ⟨p1 .assignInverted rfl, p24 .assignInverted rfl, p1 .or rfl, p24 .or rfl, p1 .and rfl, p24 .and rfl,
    p1 .clear rfl, p24 .clear rfl⟩

end Sys2Proof.Machine
end

section
/-! PROOFS. The rows of C8C8: five copy the source byte, three blend it over the destination byte (45_color8_to_color8
R240 to R252). -/

namespace Sys2Proof.Machine

/-- A loop that paints its bytes and is stopped by no row ends with `OK` and the bytes painted (41_dispatch R161). -/
theorem paintsBytes_of_runBlit {s : State} {i : Instr} {a : BlitArgs} {paint : Px → Color → Color}
    {pixel : Px → Memory → Except Stop Memory} (hruns : runs s a = true) (hexec : exec i s = runBlit pixel a s)
    (hpaint : ∃ m, runPixels pixel (visited s a) s.mem = .ok m ∧ bytesPainted a paint s m) :
    paintsBytes i a paint s := by
  obtain ⟨m, hm, hbytes⟩ := hpaint
  exact ⟨m, hexec.trans (runBlit_ok hruns hm), hbytes⟩

/-- A C8C8 row has no entry check: it is the loop that combines by its operator (45_color8_to_color8 R240, R241). -/
theorem c8c8_paintsBytes {s : State} {d f : PixelFormat} (hd : d.isEightBit = true) (hf : f.isEightBit = true)
    (hacc : accepting s = true) (hruns : runs s (rowArgs s d f) = true) (op : CompOp) :
    paintsBytes (Routine.c8c8.instr op d f) (rowArgs s d f)
      (fun p v => combinedByte engineLib op (rowArgs s d f).tint (colorPixel s (rowArgs s d f).src p.sx p.sy) v) s := by
  obtain ⟨combine, hpaints, hrow⟩ := runC8c8_combines op engineLib (rowArgs s d f) s
  have hexec : exec (Routine.c8c8.instr op d f) s = c8c8 combine (rowArgs s d f) s :=
    (exec_instr_of_accepting hacc hd (r := .c8c8) ⟨hf, hd⟩ op).trans hrow
  exact paintsBytes_of_runBlit hruns hexec (c8c8_painted hpaints (runs_iff.1 hruns).2 hd hf)

/-- Settles O38: each of the eight rows is the loop that combines by its operator. -/
theorem color8RowsCopyOrBlendTheirBytes : Obligations.Color8RowsCopyOrBlendTheirBytes := by
  intro s d f hd hf hacc a hruns
  simp only [List.forall_mem_cons, List.not_mem_nil, false_imp_iff, implies_true, and_true]
  have paints := c8c8_paintsBytes hd hf hacc hruns
  exact ⟨paints .assign, paints .assignInverted, paints .or, paints .and, paints .clear, paints .set, paints .tint,
    paints .tintLuminance⟩

end Sys2Proof.Machine
end

section
/-! PROOFS. The rows of M1C8: each bit writes white, black or the tint, or leaves its byte (46_mono1_to_color8 R260 to
R270). -/

namespace Sys2Proof.Machine

/-- An M1C8 row over an aligned source is the loop that expands by its operator (46_mono1_to_color8 R260, R261). -/
theorem m1c8_paintsBytes {s : State} {d : PixelFormat} (hd : d.isEightBit = true) (hacc : accepting s = true)
    (hal : isAligned (rowArgs s d .mono1).src = true) (hruns : runs s (rowArgs s d .mono1) = true) (op : CompOp) :
    paintsBytes (Routine.m1c8.instr op d .mono1) (rowArgs s d .mono1)
      (fun p v => expandedByte op (rowArgs s d .mono1).tint (monoPixel s (rowArgs s d .mono1).src p.sx p.sy) v) s := by
  obtain ⟨expand, hexpand, hrow⟩ := runM1c8_expands op (rowArgs s d .mono1) s
  have hexec : exec (Routine.m1c8.instr op d .mono1) s = m1c8 expand (rowArgs s d .mono1) s :=
    (exec_instr_of_accepting hacc hd (r := .m1c8) ⟨rfl, hd⟩ op).trans hrow
  exact paintsBytes_of_runBlit hruns (hexec.trans (withAlignment_of_aligned hal s _))
    (m1c8_painted (expandedByte op (rowArgs s d .mono1).tint) (runs_iff.1 hruns).2 hd rfl hexpand)

/-- Settles O39: each of the eight rows is the loop that expands by its operator. -/
theorem mono1RowsExpandTheirBytes : Obligations.Mono1RowsExpandTheirBytes := by
  intro s d hd hacc a hal hruns
  simp only [List.forall_mem_cons, List.not_mem_nil, false_imp_iff, implies_true, and_true]
  have paints := m1c8_paintsBytes hd hacc hal hruns
  exact ⟨paints .assign, paints .assignInverted, paints .or, paints .and, paints .clear, paints .set, paints .tint,
    paints .tintLuminance⟩

end Sys2Proof.Machine
end

section
/-! PROOFS. The framebuffer commands that give no row to the driver: clear, mark-dirty, the iterator's question and the
dirty reset (47_framebuffer R284, R286, R294, R297). -/

namespace Sys2Proof.Machine

/-! ### Packed fields that are not negative (30_encoding R91, R92) -/

theorem packFields_natCast {lo : Nat} (h : lo < 65536) (hi : Nat) :
    packFields lo hi = BitVec.ofNat 32 (hi * 65536 + lo) := by
  apply BitVec.eq_of_toNat_eq
  have hlo : lo % 2 ^ 16 = lo := Nat.mod_eq_of_lt h
  rw [packFields, BitVec.ofInt_natCast, BitVec.ofInt_natCast, BitVec.toNat_append, BitVec.toNat_ofNat,
    BitVec.toNat_ofNat, BitVec.toNat_ofNat, hlo, ← Nat.shiftLeft_add_eq_or_of_lt h, Nat.shiftLeft_eq]
  omega

/-! ### FB_CLEAR (47_framebuffer R284) -/

/-- The framebuffer's own bounds in the dirty registers (47_framebuffer R284). -/
theorem setDirty_fbBounds {c : Cfg} (hc : cfgWf c = true) (s : State) :
    setDirty s (fbBounds c) = { s with
      fbDirtyOrg := 0, fbDirtySize := BitVec.ofNat 32 (c.fbRows * 65536 + c.fbCols), fbFlags := 1 } := by
  obtain ⟨⟨_, hcols⟩, _⟩ := cfgWf_size hc
  have horigin : packFields 0 0 = 0 := by decide
  have hfits : c.fbCols < 65536 := by omega
  simp only [setDirty, fbBounds, horigin, packFields_natCast hfits]

/-- Settles O52: one fill of the owned bytes, and the bounds packed into the dirty registers. -/
theorem clearFillsTheFramebuffer : Obligations.ClearFillsTheFramebuffer := by
  refine ⟨by decide, fun s hacc hc => ⟨fillBytes s.mem s.cfg.fbBase 0xFF (sizeBytes s.cfg), ?_, fun i hi => ?_,
    fun b hb => ?_⟩⟩
  · rw [exec_fbClear_of_accepting hacc, setDirty_fbBounds hc, endOk_eq]
    rfl
  · rw [peek_fillBytes _ _ _ _ _ _ (cfgWf_space hc), if_pos (by omega)]
  · have hout : ¬ (s.cfg.fbBase ≤ b ∧ b < s.cfg.fbBase + sizeBytes s.cfg) := fun hin =>
      hb (b - s.cfg.fbBase) (by omega) (by omega)
    rw [peek_fillBytes _ _ _ _ _ _ (cfgWf_space hc), if_neg hout]

/-! ### FB_MARK_DIRTY (47_framebuffer R286) -/

theorem exec_fbMarkDirty_of_accepting {s : State} (h : accepting s = true) :
    exec .fbMarkDirty s = .next (endOk (setDirty s (markedRect s (rectOf s.rectOrg s.rectSize)))) := by
  rw [exec, execFbMarkDirty, whenAccepting_of_accepting h]

/-- The marked rectangle fits its four fields, so the dirty registers hold it whole. -/
theorem dirtyRect_setDirty_markedRect {s : State} (hc : cfgWf s.cfg = true) (org size : Word) :
    dirtyRect (setDirty s (markedRect s (rectOf org size))) = markedRect s (rectOf org size) :=
  have horigin := markedRect_origin s org size
  dirtyRect_setDirty hc (dirtyIn_clipRect s.cfg _) horigin.1 horigin.2

/-- Settles O53: the command sets `markedRect`, which the dirty registers hold whole. -/
theorem markDirtyClipsTheUnion : Obligations.MarkDirtyClipsTheUnion := by
  refine ⟨by decide, fun s hacc hc => ⟨_, _, ?_, dirtyRect_setDirty_markedRect hc s.rectOrg s.rectSize⟩⟩
  rw [exec_fbMarkDirty_of_accepting hacc, endOk_eq]
  rfl

/-! ### FB_HAS_NEXT_ROW and FB_RESET_DIRTY (47_framebuffer R294, R297) -/

theorem hasNextRow_iff {s : State} :
    hasNextRow s = true ↔ isDirtyFlag s.fbFlags = true ∧ (cursorRow s : Int) < (dirtyRect s).h := by
  rw [hasNextRow, Bool.and_eq_true, decide_eq_true_eq]

/-- Settles O57: RES0 answers `hasNextRow`. -/
theorem hasNextRowAnswersInRes0 : Obligations.HasNextRowAnswersInRes0 := by
  refine ⟨by decide, fun s hacc => ?_⟩
  rw [exec, execFbHasNextRow, whenAccepting_of_accepting hacc, endOk_eq]
  simp only [hasNextRow_iff]
  rfl

/-- Settles O59: the command is one record update. -/
theorem resetDirtyCleansTheState : Obligations.ResetDirtyCleansTheState := by
  refine ⟨by decide, fun s hacc => ?_⟩
  rw [exec, execFbResetDirty, whenAccepting_of_accepting hacc, endOk_eq]
  rfl

end Sys2Proof.Machine
end

section
/-! PROOFS. The dirty rectangle after any number of marks (40_primitives R121, R122, 47_framebuffer R287). -/

namespace Sys2Proof.Machine

/-! ### Clipping after every mark or once at the end (47_framebuffer R287) -/

/-- A rectangle with a pixel (40_primitives R120). -/
def NonEmpty (r : Rect) : Prop := 0 < r.w ∧ 0 < r.h

theorem NonEmpty.unionRect {a b : Rect} (ha : NonEmpty a) (hb : NonEmpty b) : NonEmpty (unionRect a b) := by
  obtain ⟨haw, hah⟩ := ha
  obtain ⟨hbw, hbh⟩ := hb
  constructor <;> simp only [Machine.unionRect, maxX, maxY] <;> omega

/-- R287 along one axis: the extents `[a, a + w)` and `[b, b + v)`, the bounds `[0, n)`. Where `[a, a + w)` misses the
bounds its clip is empty at a bound or beyond it, and moves no edge of the clipped union. -/
theorem clip_union_clip_axis {a w b v n : Int} (hw : 0 < w) (hv : 0 < v) (hn : 0 ≤ n) :
    let x0 := max a 0
    let w0 := max 0 (min (a + w) (0 + n) - x0)
    let y0 := min x0 b
    let z0 := min a b
    max y0 0 = max z0 0
      ∧ max 0 (min (y0 + (max (x0 + w0) (b + v) - y0)) (0 + n) - max y0 0)
        = max 0 (min (z0 + (max (a + w) (b + v) - z0)) (0 + n) - max z0 0) := by
  dsimp only
  omega

/-- A union clipped takes the same from a rectangle and from its clip (47_framebuffer R287). -/
theorem clipRect_unionRect_clipRect (c : Cfg) {d r : Rect} (hd : NonEmpty d) (hr : NonEmpty r) :
    clipRect (unionRect (clipRect d (fbBounds c)) r) (fbBounds c) = clipRect (unionRect d r) (fbBounds c) := by
  obtain ⟨hdw, hdh⟩ := hd
  obtain ⟨hrw, hrh⟩ := hr
  obtain ⟨hx, hwidth⟩ := clip_union_clip_axis (a := d.x) (b := r.x) hdw hrw (Int.natCast_nonneg c.fbCols)
  obtain ⟨hy, hheight⟩ := clip_union_clip_axis (a := d.y) (b := r.y) hdh hrh (Int.natCast_nonneg c.fbRows)
  simp only [clipRect, unionRect, fbBounds, maxX, maxY, Rect.mk.injEq]
  exact ⟨hx, hy, hwidth, hheight⟩

/-! ### A sequence of marks (47_framebuffer R287) -/

theorem okStatus_okStatus (st : Word) : okStatus (okStatus st) = okStatus st := by
  rw [okStatus, okStatus, BitVec.and_assoc, BitVec.and_self]

theorem accepting_endedOk {s : State} (h : accepting s = true) (m : Memory) : accepting (endedOk s m) = true := by
  have hbit : (0xFFFFFFF0 : Word).getLsbD 31 = true := by decide
  simpa [accepting, okStatus, hbit] using h

/-- The state after marks, the last one with `org` and `size` in the RECT registers, that left `dirtyOrg` and
`dirtySize` in the dirty registers. -/
def afterMarks (s : State) (org size dirtyOrg dirtySize : Word) : State :=
  { endedOk s s.mem with
    rectOrg := org, rectSize := size, fbDirtyOrg := dirtyOrg, fbDirtySize := dirtySize, fbFlags := 1 }

/-- The first mark, and every later one, leaves a state of this form. -/
theorem endOk_setDirty_rect (s : State) (o z : Word) (r : Rect) :
    endOk (setDirty { s with rectOrg := o, rectSize := z } r)
      = afterMarks s o z (packFields r.x r.y) (packFields r.w r.h) := by
  rw [endOk_eq]; rfl

theorem endOk_setDirty_afterMarks (s : State) (o z dirtyOrg dirtySize : Word) (r : Rect) :
    endOk (setDirty (afterMarks s o z dirtyOrg dirtySize) r)
      = afterMarks s o z (packFields r.x r.y) (packFields r.w r.h) := by
  rw [endOk_eq]
  simp only [endedOk, afterMarks, setDirty, okStatus_okStatus]

/-- `t` is `s` after marks whose bounding box is `d`. -/
structure MarkedFrom (s : State) (d : Rect) (t : State) : Prop where
  rect : dirtyRect t = clipRect d (fbBounds s.cfg)
  frame : ∃ org size dirtyOrg dirtySize, t = afterMarks s org size dirtyOrg dirtySize

/-- The first mark, of a Clean framebuffer. -/
theorem markedFrom_first {s : State} (hacc : accepting s = true) (hc : cfgWf s.cfg = true)
    (hclean : isDirtyFlag s.fbFlags = false) (o z : Word) :
    ∃ t, exec .fbMarkDirty { s with rectOrg := o, rectSize := z } = .next t ∧ MarkedFrom s (rectOf o z) t := by
  refine ⟨_, exec_fbMarkDirty_of_accepting (s := { s with rectOrg := o, rectSize := z }) hacc, ?_,
    _, _, _, _, endOk_setDirty_rect s o z _⟩
  refine (dirtyRect_setDirty_markedRect (s := { s with rectOrg := o, rectSize := z }) hc o z).trans ?_
  simp only [markedRect, hclean, Bool.false_eq_true, if_false]

/-- Every later mark widens the bounding box. -/
theorem MarkedFrom.mark {s t : State} {d : Rect} (h : MarkedFrom s d t) (hacc : accepting s = true)
    (hc : cfgWf s.cfg = true) (hd : NonEmpty d) {o z : Word} (hr : NonEmpty (rectOf o z)) :
    ∃ t', exec .fbMarkDirty { t with rectOrg := o, rectSize := z } = .next t'
      ∧ MarkedFrom s (unionRect d (rectOf o z)) t' := by
  obtain ⟨hrect, _, _, p, q, rfl⟩ := h
  have hold : dirtyRect (afterMarks s o z p q) = clipRect d (fbBounds s.cfg) := hrect
  have hflag : isDirtyFlag (afterMarks s o z p q).fbFlags = true := isDirtyFlag_one
  refine ⟨_, exec_fbMarkDirty_of_accepting (s := afterMarks s o z p q) (accepting_endedOk hacc s.mem), ?_,
    _, _, _, _, endOk_setDirty_afterMarks s o z p q _⟩
  calc dirtyRect (setDirty (afterMarks s o z p q) (markedRect (afterMarks s o z p q) (rectOf o z)))
      = markedRect (afterMarks s o z p q) (rectOf o z) :=
        dirtyRect_setDirty_markedRect (s := afterMarks s o z p q) hc o z
    _ = clipRect (unionRect (clipRect d (fbBounds s.cfg)) (rectOf o z)) (fbBounds s.cfg) := by
        rw [markedRect, if_pos hflag, hold]; rfl
    _ = clipRect (unionRect d (rectOf o z)) (fbBounds s.cfg) := clipRect_unionRect_clipRect s.cfg hd hr

theorem MarkedFrom.exists_markAll {s t : State} {d : Rect} {rest : List (Word × Word)} (h : MarkedFrom s d t)
    (hacc : accepting s = true) (hc : cfgWf s.cfg = true) (hd : NonEmpty d)
    (hrest : ∀ r ∈ rest, NonEmpty (rectOf r.1 r.2)) :
    ∃ t', markAll rest t = .next t'
      ∧ MarkedFrom s (rest.foldl (fun d r => unionRect d (rectOf r.1 r.2)) d) t' := by
  induction rest generalizing t d with
  | nil => exact ⟨t, rfl, h⟩
  | cons r rest ih =>
    obtain ⟨hr, hrest⟩ := List.forall_mem_cons.1 hrest
    obtain ⟨t1, hexec, h1⟩ := h.mark hacc hc hd hr
    obtain ⟨t', hall, h'⟩ := ih h1 (hd.unionRect hr) hrest
    exact ⟨t', by simp only [markAll, hexec, hall], h'⟩

/-- Settles O54, by induction on the marks after the first one. -/
theorem dirtyRectangleIsTheClippedBoundingBox : Obligations.DirtyRectangleIsTheClippedBoundingBox := by
  intro s o z rest hacc hc hclean hmarks
  obtain ⟨hfirst, hrest⟩ := List.forall_mem_cons.1 hmarks
  obtain ⟨t1, hexec, h1⟩ := markedFrom_first hacc hc hclean o z
  obtain ⟨t, hall, h⟩ := h1.exists_markAll hacc hc hfirst hrest
  obtain ⟨hrect, _, _, _, _, rfl⟩ := h
  exact ⟨_, by simp only [markAll, hexec, hall], hrect, rfl, rfl⟩

end Sys2Proof.Machine
end

section
/-! PROOFS. The rows of the framebuffer: the row table's packing, the owned bytes, and the commands FB_GET_ROW and
FB_SIZE_BYTES (10_state R45, 47_framebuffer R281 to R283, R288, R290). -/

namespace Sys2Proof.Machine

/-! ### The row table (10_state R45, 47_framebuffer R282) -/

theorem cfgWf_rowtabWf {c : Cfg} (h : cfgWf c = true) : rowtabWf c.rowtab = true := by
  simp only [cfgWf, Bool.and_eq_true] at h
  obtain ⟨⟨⟨⟨⟨_, htab⟩, _⟩, _⟩, _⟩, _⟩ := h
  exact htab

theorem cfgWf_packed {c : Cfg} (h : cfgWf c = true) : packedFrom 0 c.rowtab = true := by
  have htab := cfgWf_rowtabWf h
  rw [rowtabWf, Bool.and_eq_true] at htab
  exact htab.2

theorem cfgWf_maxX {c : Cfg} (h : cfgWf c = true) : ∀ e ∈ c.rowtab, e.maxX ≤ 32767 := by
  have htab := cfgWf_rowtabWf h
  simp only [rowtabWf, Bool.and_eq_true, List.all_eq_true, decide_eq_true_eq] at htab
  obtain ⟨htab, _⟩ := htab
  exact fun e he => (htab e he).2

/-- Every row of a circular framebuffer has its entry. -/
theorem exists_rowEntry {c : Cfg} (h : cfgWf c = true) (hf : c.fbFormat = .color8Circular) {k : Nat}
    (hk : k < c.fbRows) : ∃ e, c.rowtab[k]? = some e :=
  ⟨_, List.getElem?_eq_getElem (cfgWf_circular h hf ▸ hk)⟩

/-- How many bytes the first `k` rows of the table store. -/
def storedBefore (tab : List RowEntry) (k : Nat) : Nat := ((tab.take k).map storedColumns).sum

theorem storedBefore_succ {tab : List RowEntry} {k : Nat} {e : RowEntry} (he : tab[k]? = some e) :
    storedBefore tab (k + 1) = storedBefore tab k + storedColumns e := by
  simp [storedBefore, List.take_add_one, he]

theorem storedBefore_mono {tab : List RowEntry} {j k : Nat} (h : j ≤ k) :
    storedBefore tab j ≤ storedBefore tab k :=
  ((List.take_sublist_take_left h).map storedColumns).sum_le_sum fun _ _ => Nat.zero_le _

/-- In a packed table a row's first stored byte comes right after the bytes of the rows above it (10_state R45). -/
theorem rowEntry_start {tab : List RowEntry} {first : Int} (hpacked : packedFrom first tab = true)
    (hwf : ∀ e ∈ tab, e.minX ≤ e.maxX) {k : Nat} {e : RowEntry} (he : tab[k]? = some e) :
    e.offset + e.minX = first + storedBefore tab k := by
  induction tab generalizing first k with
  | nil => cases he
  | cons d tab ih =>
    simp only [packedFrom, Bool.and_eq_true, beq_iff_eq] at hpacked
    obtain ⟨hstart, hpacked⟩ := hpacked
    cases k with
    | zero =>
      obtain rfl : d = e := by simpa using he
      simpa [storedBefore] using hstart
    | succ k =>
      obtain ⟨hd, hwf⟩ := List.forall_mem_cons.1 hwf
      have hrest := ih hpacked hwf (k := k) (by simpa using he)
      have hstored : storedBefore (d :: tab) (k + 1) = storedColumns d + storedBefore tab k := by
        simp [storedBefore]
      rw [hstored, hrest]
      unfold storedColumns
      omega

/-! ### The owned bytes (47_framebuffer R281, R282) -/

theorem sizeBytes_linear {c : Cfg} (hf : c.fbFormat ≠ .color8Circular) : sizeBytes c = bytesPerRow c * c.fbRows := by
  unfold sizeBytes
  split <;> simp_all

theorem sizeBytes_circular {c : Cfg} (hf : c.fbFormat = .color8Circular) :
    sizeBytes c = storedBefore c.rowtab c.fbRows := by
  simp only [sizeBytes, hf, storedBefore]

theorem storedBefore_le {c : Cfg} (h : cfgWf c = true) (k : Nat) : storedBefore c.rowtab k ≤ k * 32768 := by
  have hcols : ∀ n ∈ (c.rowtab.take k).map storedColumns, n ≤ 32768 := by
    simp only [List.forall_mem_map]
    intro e he
    have := cfgWf_maxX h e (List.mem_of_mem_take he)
    unfold storedColumns
    omega
  calc storedBefore c.rowtab k
      ≤ ((c.rowtab.take k).map storedColumns).length * 32768 := List.sum_le_card_nsmul _ _ hcols
    _ ≤ k * 32768 := by
      rw [List.length_map]
      exact Nat.mul_le_mul_right _ (List.length_take_le _ _)

theorem sizeBytes_lt {c : Cfg} (h : cfgWf c = true) : sizeBytes c < 4294967296 := by
  obtain ⟨_, _, hrows⟩ := cfgWf_size h
  by_cases hf : c.fbFormat = .color8Circular
  · rw [sizeBytes_circular hf]
    have := storedBefore_le h c.fbRows
    omega
  · have := Nat.mul_le_mul (Nat.le_of_lt (bytesPerRow_lt h)) hrows
    rw [sizeBytes_linear hf]
    omega

/-- The owned bytes end with the last stored byte of the last row (47_framebuffer R282). -/
theorem sizeBytes_lastRow {c : Cfg} (h : cfgWf c = true) (hf : c.fbFormat = .color8Circular) :
    ∃ e, c.rowtab.getLast? = some e ∧ (sizeBytes c : Int) = e.offset + e.maxX + 1 := by
  obtain ⟨_, hrows, _⟩ := cfgWf_size h
  obtain ⟨e, he⟩ := exists_rowEntry h hf (k := c.fbRows - 1) (by omega)
  refine ⟨e, by rw [List.getLast?_eq_getElem?, cfgWf_circular h hf, he], ?_⟩
  have hmin := cfgWf_rowtab h e (List.mem_of_getElem? he)
  have hstart := rowEntry_start (cfgWf_packed h) (cfgWf_rowtab h) he
  have hend := storedBefore_succ he
  rw [Nat.sub_add_cancel hrows, ← sizeBytes_circular hf] at hend
  unfold storedColumns at hend
  omega

/-- The owned bytes are the stored columns of all rows (47_framebuffer R282). -/
theorem sizeBytes_allRows {c : Cfg} (h : cfgWf c = true) (hf : c.fbFormat = .color8Circular) :
    sizeBytes c = (c.rowtab.map fun e => e.maxX - e.minX + 1).sum := by
  have hcols : c.rowtab.map storedColumns = c.rowtab.map fun e => e.maxX - e.minX + 1 :=
    List.map_congr_left fun e he => Nat.sub_add_comm (cfgWf_rowtab h e he)
  rw [sizeBytes_circular hf, storedBefore, ← cfgWf_circular h hf, List.take_length, hcols]

/-- Settles O56, format by format from the lemmas about the owned bytes. -/
theorem sizeBytesReturnsTheOwnedBytes : Obligations.SizeBytesReturnsTheOwnedBytes := by
  intro s hacc hc
  refine ⟨sizeBytes s.cfg, ?_, sizeBytes_lt hc, fun hf => ?_, fun hf => ?_, fun hf => ?_⟩
  · rw [exec, execFbSizeBytes, whenAccepting_of_accepting hacc, endOk_eq]
    rfl
  · rw [sizeBytes_linear (by simp [hf]), bytesPerRow, hf]
  · rw [sizeBytes_linear (by simp [hf]), bytesPerRow, hf]
  · exact ⟨sizeBytes_allRows hc hf, sizeBytes_lastRow hc hf⟩

/-! ### FB_GET_ROW (47_framebuffer R283, R288) -/

theorem fbRow_outside {c : Cfg} {y : Int} (h : y < 0 ∨ (c.fbRows : Int) ≤ y) : fbRow c y = none := by
  rw [fbRow, if_pos h]

theorem fbRow_linear {c : Cfg} (hc : cfgWf c = true) (hf : c.fbFormat ≠ .color8Circular) {k : Nat}
    (hk : k < c.fbRows) : fbRow c k =
      some (BitVec.ofNat 32 (c.fbBase + k * bytesPerRow c), BitVec.ofNat 32 ((c.fbCols - 1) * 65536)) := by
  obtain ⟨⟨hcols, _⟩, _⟩ := cfgWf_size hc
  have hlast : ((c.fbCols : Int) - 1) = (c.fbCols - 1 : Nat) := by omega
  have hwindow : packFields 0 ((c.fbCols : Int) - 1) = BitVec.ofNat 32 ((c.fbCols - 1) * 65536) := by
    rw [hlast, ← Int.natCast_zero, packFields_natCast (by omega), Nat.add_zero]
  rw [fbRow, if_neg (by omega), if_neg hf, hwindow, ← BitVec.ofInt_natCast]
  push_cast
  rfl

theorem fbRow_circular {c : Cfg} (hc : cfgWf c = true) (hf : c.fbFormat = .color8Circular) {k : Nat}
    (hk : k < c.fbRows) {e : RowEntry} (he : c.rowtab[k]? = some e) : fbRow c k =
      some (BitVec.ofInt 32 (c.fbBase + e.offset), BitVec.ofNat 32 (e.maxX * 65536 + e.minX)) := by
  have hmin := cfgWf_rowtab hc e (List.mem_of_getElem? he)
  have hmax := cfgWf_maxX hc e (List.mem_of_getElem? he)
  rw [fbRow, if_neg (by omega), if_pos hf, Int.toNat_natCast, he, Option.map_some, packFields_natCast (by omega)]

theorem exec_fbGetRow_of_none {s : State} (hacc : accepting s = true) (h : fbRow s.cfg (lowField s.arg0) = none) :
    exec .fbGetRow s = .next (endedHalt s s.mem 1) := by
  rw [exec, execFbGetRow, whenAccepting_of_accepting hacc, h, raiseFatal_eq]
  rfl

theorem exec_fbGetRow_of_some {s : State} (hacc : accepting s = true) {ptr window : Word}
    (h : fbRow s.cfg (lowField s.arg0) = some (ptr, window)) :
    exec .fbGetRow s = .next { endedOk s s.mem with res0 := ptr, res1 := window } := by
  rw [exec, execFbGetRow, whenAccepting_of_accepting hacc, h]
  dsimp only
  rw [endOk_eq]
  rfl

/-- Settles O55: the three cases of `fbRow`. -/
theorem getRowReturnsTheDescriptor : Obligations.GetRowReturnsTheDescriptor := by
  refine ⟨by decide, fun s hacc hc => ⟨fun hout => ?_, fun h0 hlt hf => ?_, fun h0 hlt hf => ?_⟩⟩
  · exact exec_fbGetRow_of_none hacc (fbRow_outside hout)
  · have hy := Int.toNat_of_nonneg h0
    have hrow := fbRow_linear hc hf (k := (lowField s.arg0).toNat) (by omega)
    rw [hy] at hrow
    exact exec_fbGetRow_of_some hacc hrow
  · have hy := Int.toNat_of_nonneg h0
    have hk : (lowField s.arg0).toNat < s.cfg.fbRows := by omega
    obtain ⟨e, he⟩ := exists_rowEntry hc hf hk
    have hrow := fbRow_circular hc hf hk he
    rw [hy] at hrow
    exact ⟨e, he, exec_fbGetRow_of_some hacc hrow⟩

end Sys2Proof.Machine
end

section
/-! PROOFS. The flush iterator: a row of the framebuffer as it is read, FB_NEXT_ROW, and a pass of it (47_framebuffer
R283, R292, R296, R300). -/

namespace Sys2Proof.Machine

/-! ### Reading bytes in a row (47_framebuffer R296) -/

theorem readBytes_of_backed {e : PixEnv} {m : Memory} {a : Int} {n : Nat}
    (h : ∀ i : Nat, i < n → isBacked e.backed (pixAddr (a + i)) = true) :
    readBytes e m a n = .ok ((List.range n).map fun (i : Nat) => peek e.epoch m (pixAddr (a + i))) := by
  induction n generalizing a with
  | zero => rfl
  | succ n ih =>
    have hshift (i : Nat) : a + 1 + (i : Int) = a + (i + 1 : Nat) := by push_cast; ring
    have hfirst : readByte e m a = .ok (peek e.epoch m (pixAddr a)) :=
      readByte_of_backed (by simpa using h 0 (by omega))
    have hrest : readBytes e m (a + 1) n = _ :=
      ih fun i hi => by rw [hshift]; exact h (i + 1) (by omega)
    rw [readBytes, hfirst, hrest]
    simp [List.range_succ_eq_map, hshift, bind, Except.bind, pure, Except.pure, Function.comp_def]

/-! ### The bytes of a framebuffer row (47_framebuffer R282, R283, R296) -/

theorem cfgWf_backed {c : Cfg} (h : cfgWf c = true) {i : Nat} (hi : i < sizeBytes c) :
    isBacked c.backed (c.fbBase + i) = true := by
  simp only [cfgWf, Bool.and_eq_true, List.all_eq_true, List.mem_range] at h
  obtain ⟨⟨_, hbacked⟩, _⟩ := h
  exact hbacked i hi

/-- A row of the framebuffer starts at an owned byte and ends within the owned bytes. -/
theorem fbRow_owned {c : Cfg} (h : cfgWf c = true) {k : Nat} (hk : k < c.fbRows) :
    ∃ n : Nat, fbRowStart c k = c.fbBase + n ∧ n + fbRowLength c k ≤ sizeBytes c := by
  by_cases hf : c.fbFormat = .color8Circular
  · obtain ⟨e, he⟩ := exists_rowEntry h hf hk
    have hstart := rowEntry_start (cfgWf_packed h) (cfgWf_rowtab h) he
    refine ⟨storedBefore c.rowtab k, ?_, ?_⟩
    · rw [fbRowStart, if_pos hf]
      simp only [rowOffset, Int.toNat_natCast, he, Option.map_some, Option.getD_some]
      omega
    · have hlength : fbRowLength c k = storedColumns e := by
        simp [fbRowLength, hf, he, storedColumns]
      rw [hlength, ← storedBefore_succ he, sizeBytes_circular hf]
      exact storedBefore_mono hk
  · refine ⟨k * bytesPerRow c, ?_, ?_⟩
    · rw [fbRowStart, if_neg hf]; push_cast; rfl
    · rw [fbRowLength, if_neg hf, sizeBytes_linear hf, ← Nat.succ_mul, Nat.mul_comm]
      exact Nat.mul_le_mul_left _ hk

/-- The row FB_NEXT_ROW hands over is the stored row of the statements. -/
theorem storedRow_eq {c : Cfg} (h : cfgWf c = true) {k : Nat} (hk : k < c.fbRows) :
    storedRow c k = some (fbRowStart c k, fbRowLength c k) := by
  by_cases hf : c.fbFormat = .color8Circular
  · obtain ⟨e, he⟩ := exists_rowEntry h hf hk
    simp [storedRow, fbRowStart, fbRowLength, rowOffset, hf, he, storedColumns]
  · rw [storedRow, fbRowStart, fbRowLength, if_neg hf, if_neg hf, if_neg hf]

theorem readBytes_fbRow {s : State} (h : cfgWf s.cfg = true) {k : Nat} (hk : k < s.cfg.fbRows) :
    readBytes (pixEnv s) s.mem (fbRowStart s.cfg k) (fbRowLength s.cfg k) = .ok (fbRowBytes s k) := by
  obtain ⟨n, hstart, hend⟩ := fbRow_owned h hk
  have hspace := cfgWf_space h
  refine readBytes_of_backed fun i hi => ?_
  have haddr : fbRowStart s.cfg k + i = (s.cfg.fbBase + (n + i) : Nat) := by rw [hstart]; push_cast; ring
  rw [haddr, pixAddr_natCast (by omega)]
  exact cfgWf_backed h (by omega)

/-! ### FB_NEXT_ROW (47_framebuffer R292, R296) -/

/-- The next row of the flush (47_framebuffer R292). -/
def nextRow (s : State) : Int := (dirtyRect s).y + s.fbCursor.toNat

/-- The state after the next row of the flush is handed over (47_framebuffer R296). -/
def rowHandedOver (s : State) : State :=
  { endedOk s s.mem with
    res0 := BitVec.ofInt 32 (nextRow s)
    res1 := BitVec.ofInt 32 (fbRowStart s.cfg (nextRow s))
    res2 := BitVec.ofNat 32 (fbRowLength s.cfg (nextRow s))
    fbCursor := s.fbCursor + 1
    rowOut := s.rowOut ++ [⟨nextRow s, fbRowBytes s (nextRow s)⟩] }

theorem rowsLeft_pos_iff {s : State} (h : Inv s) : 0 < rowsLeft s ↔ hasNextRow s = true := by
  rw [hasNextRow_iff, h.cursorRow_eq, rowsLeft]
  split <;> simp_all

/-- While rows are left the next one is a row of the framebuffer (47_framebuffer R287). -/
theorem exists_nextRow {s : State} (h : Inv s) (hleft : 0 < rowsLeft s) :
    ∃ k : Nat, nextRow s = k ∧ k < s.cfg.fbRows := by
  obtain ⟨_, hcursor⟩ := hasNextRow_iff.1 ((rowsLeft_pos_iff h).1 hleft)
  rw [h.cursorRow_eq] at hcursor
  have hy := h.dirty.y
  have hbottom := h.dirty.bottom
  unfold maxY at hbottom
  have hnext : nextRow s = (dirtyRect s).y + s.fbCursor.toNat := rfl
  exact ⟨(nextRow s).toNat, by omega, by omega⟩

theorem ofNat_pixAddr (a : Int) : BitVec.ofNat 32 (pixAddr a) = BitVec.ofInt 32 a := by
  have h := pixAddr_lt a
  apply BitVec.eq_of_toNat_eq
  rw [BitVec.toNat_ofNat, BitVec.toNat_ofInt, Nat.mod_eq_of_lt h]
  rfl

/-- Under the invariant the cursor is below 2^16, where it does not wrap (10_state R44). -/
theorem Inv.cursor_lt {s : State} (h : Inv s) : s.fbCursor.toNat < 32768 := by
  obtain ⟨_, _, hrows⟩ := cfgWf_size h.config
  have := h.cursor
  omega

theorem toNat_cursor_succ {s : State} (h : Inv s) : (s.fbCursor + 1).toNat = s.fbCursor.toNat + 1 := by
  have := h.cursor_lt
  have hone : (1 : Word).toNat = 1 := rfl
  rw [BitVec.toNat_add, hone]
  omega

theorem cursor_succ {s : State} (h : Inv s) :
    BitVec.ofNat 32 ((cursorRow s + 1) % 65536) = s.fbCursor + 1 := by
  have := h.cursor_lt
  apply BitVec.eq_of_toNat_eq
  rw [toNat_cursor_succ h, h.cursorRow_eq, BitVec.toNat_ofNat]
  omega

theorem exec_fbNextRow_of_rowsLeft {s : State} (h : Inv s) (hacc : accepting s = true) (hleft : 0 < rowsLeft s) :
    exec .fbNextRow s = .next (rowHandedOver s) := by
  obtain ⟨k, hk, hlt⟩ := exists_nextRow h hleft
  have hrow : (dirtyRect s).y + (cursorRow s : Int) = k := by rw [h.cursorRow_eq]; exact hk
  rw [exec, execFbNextRow, whenAccepting_of_accepting hacc, if_pos ((rowsLeft_pos_iff h).1 hleft)]
  simp only [hrow, storedRow_eq h.config hlt, readBytes_fbRow h.config hlt]
  rw [endOk_eq, rowHandedOver, hk, ← cursor_succ h, ← ofNat_pixAddr (fbRowStart s.cfg k)]
  rfl

theorem exec_fbNextRow_of_no_rowsLeft {s : State} (h : Inv s) (hacc : accepting s = true) (hleft : rowsLeft s = 0) :
    exec .fbNextRow s = .next (endedError s 4 0) := by
  have hnext : ¬ hasNextRow s = true := fun hn => by have := (rowsLeft_pos_iff h).2 hn; omega
  rw [exec, execFbNextRow, whenAccepting_of_accepting hacc, if_neg hnext, raiseError_eq]
  rfl

/-- Settles O58: the two cases of `hasNextRow`. -/
theorem nextRowYieldsTheRow : Obligations.NextRowYieldsTheRow := fun _ hinv hacc =>
  ⟨exec_fbNextRow_of_rowsLeft (inv_iff.1 hinv) hacc, exec_fbNextRow_of_no_rowsLeft (inv_iff.1 hinv) hacc⟩

/-! ### A pass of the iterator (47_framebuffer R300) -/

theorem inv_rowHandedOver {s : State} (h : Inv s) (hacc : accepting s = true) (hleft : 0 < rowsLeft s) :
    Inv (rowHandedOver s) :=
  keepsInv_exec .fbNextRow s _ h (exec_fbNextRow_of_rowsLeft h hacc hleft)

theorem accepting_rowHandedOver {s : State} (h : accepting s = true) : accepting (rowHandedOver s) = true :=
  accepting_endedOk h s.mem

theorem nextRow_rowHandedOver {s : State} (h : Inv s) : nextRow (rowHandedOver s) = nextRow s + 1 := by
  have hcursor : nextRow (rowHandedOver s) = (dirtyRect s).y + (s.fbCursor + 1).toNat := rfl
  rw [hcursor, toNat_cursor_succ h, nextRow]
  omega

theorem rowsLeft_rowHandedOver {s : State} (h : Inv s) : rowsLeft (rowHandedOver s) = rowsLeft s - 1 := by
  have hcursor : rowsLeft (rowHandedOver s)
      = if isDirtyFlag s.fbFlags then ((dirtyRect s).h - (s.fbCursor + 1).toNat).toNat else 0 := rfl
  rw [hcursor, toNat_cursor_succ h, rowsLeft]
  split <;> omega

/-- The rows that `n` commands emit from `s` on. -/
def nextRows (s : State) (n : Nat) : List RowEvent :=
  (List.range n).map fun (k : Nat) => ⟨nextRow s + k, fbRowBytes s (nextRow s + k)⟩

/-- Handing a row over changes no byte of a row. -/
theorem nextRows_succ {s : State} (h : Inv s) (n : Nat) :
    nextRows s (n + 1) = ⟨nextRow s, fbRowBytes s (nextRow s)⟩ :: nextRows (rowHandedOver s) n := by
  have hbytes (y : Int) : fbRowBytes (rowHandedOver s) y = fbRowBytes s y := rfl
  have hshift (k : Nat) : nextRow s + ((k : Int) + 1) = nextRow s + 1 + k := by omega
  simp [nextRows, List.range_succ_eq_map, nextRow_rowHandedOver h, hbytes, hshift, Function.comp_def]

theorem repeatExec_fbNextRow (n : Nat) {s : State} (h : Inv s) (hacc : accepting s = true) (hleft : n ≤ rowsLeft s) :
    ∃ t, repeatExec .fbNextRow n s = .next t ∧ t.rowOut = s.rowOut ++ nextRows s n
      ∧ t.fbCursor.toNat = s.fbCursor.toNat + n ∧ rowsLeft t = rowsLeft s - n
      ∧ t.mem = s.mem ∧ dirtyRect t = dirtyRect s ∧ accepting t = true := by
  induction n generalizing s with
  | zero => exact ⟨s, rfl, by simp [nextRows], rfl, rfl, rfl, rfl, hacc⟩
  | succ n ih =>
    have hpos : 0 < rowsLeft s := by omega
    obtain ⟨t, hrun, hout, hcursor, hrows, hmem, hdirty, hacct⟩ := ih (inv_rowHandedOver h hacc hpos)
      (accepting_rowHandedOver hacc) (by rw [rowsLeft_rowHandedOver h]; omega)
    refine ⟨t, ?_, ?_, ?_, ?_, hmem, hdirty, hacct⟩
    · rw [repeatExec, exec_fbNextRow_of_rowsLeft h hacc hpos]; exact hrun
    · rw [hout, nextRows_succ h, rowHandedOver, List.append_assoc]; rfl
    · have hsucc : (rowHandedOver s).fbCursor.toNat = s.fbCursor.toNat + 1 := toNat_cursor_succ h
      omega
    · rw [hrows, rowsLeft_rowHandedOver h]; omega

/-- Settles O60, by induction on the number of commands. -/
theorem flushYieldsEachDirtyRowOnce : Obligations.FlushYieldsEachDirtyRowOnce :=
  fun _ n hinv => repeatExec_fbNextRow n (inv_iff.1 hinv)

end Sys2Proof.Machine
end

section
/-! PROOFS. The fatal halt and the words that are no command (60_exceptions R316, R318, R320, R324). -/

namespace Sys2Proof.Machine

/-! ### A CMD word is one of ten rows or illegal (30_encoding R100, R102) -/

theorem decode_cmd_cases (w : Word) :
    decode (.cmd w) = .error .illegalCommand ∨ ∃ r ∈ cmdRows, r.pat = w ∧ decode (.cmd w) = .ok r.instr := by
  cases hcmd : decodeCmd w with
  | none => exact .inl (by simp only [decode, hcmd])
  | some i =>
    have hdecode : decode (.cmd w) = .ok i := by simp only [decode, hcmd]
    obtain ⟨r, hr, hpat, rfl⟩ := cmdRow_of_decode hdecode
    exact .inr ⟨r, hr, hpat, hdecode⟩

theorem regWrite_cmd (w : Word) (s : State) : regWrite 0x00 w s = runPacket (.cmd w) s := rfl

theorem runPacket_of_illegal {w : Word} (h : decode (.cmd w) = .error .illegalCommand) (s : State) :
    runPacket (.cmd w) s = whenAccepting s fun s => .next (raiseError .illegalCmd s) := by rw [runPacket, h]

/-- Settles O6: no row of the table matches the word. -/
theorem unmatchedCommandIsIllegal : Obligations.UnmatchedCommandIsIllegal := by
  intro w s hacc hw
  obtain hillegal | ⟨r, hr, rfl, _⟩ := decode_cmd_cases w
  · rw [regWrite_cmd, runPacket_of_illegal hillegal, whenAccepting_of_accepting hacc, raiseError_eq]
    rfl
  · exact absurd (List.mem_map_of_mem (f := CmdRow.pat) hr) hw

/-! ### In the halt nothing is executed (60_exceptions R318, R320) -/

section
variable {s t : State} (h : accepting s = false)
include h

theorem exec_of_halted {i : Instr} (ht : i ≠ .m1m1Tint) (hl : i ≠ .m1m1TintLuminance) : exec i s = .next s := by
  cases i with
  | m1m1Tint => exact absurd rfl ht
  | m1m1TintLuminance => exact absurd rfl hl
  | _ => rw [exec]; exact whenAccepting_of_halted h _

theorem runPacket_cmd_of_halted (w : Word) : runPacket (.cmd w) s = .next s := by
  obtain hillegal | ⟨r, hr, _, hdecode⟩ := decode_cmd_cases w
  · rw [runPacket_of_illegal hillegal, whenAccepting_of_halted h]
  · have hcmd : ∀ r ∈ cmdRows, r.instr ≠ .m1m1Tint ∧ r.instr ≠ .m1m1TintLuminance := by decide
    rw [runPacket_of_decode hdecode, exec_of_halted h (hcmd r hr).1 (hcmd r hr).2]

/-- The two rows without a form answer no next state (42_mono1_to_mono1 R189). -/
theorem eq_of_exec_of_halted {i : Instr} (hnext : exec i s = .next t) : t = s := by
  by_cases hform : i ≠ .m1m1Tint ∧ i ≠ .m1m1TintLuminance
  · rw [exec_of_halted h hform.1 hform.2] at hnext
    cases hnext; rfl
  · obtain rfl | rfl : i = .m1m1Tint ∨ i = .m1m1TintLuminance := by
      simpa only [not_and_or, not_not] using hform
    all_goals cases hnext

theorem eq_of_runPacket_of_halted {p : Packet} (hnext : runPacket p s = .next t) : t = s := by
  unfold runPacket at hnext
  split at hnext
  · exact eq_of_exec_of_halted h hnext
  · rw [whenAccepting_of_halted h] at hnext
    cases hnext; rfl
  · cases hnext
  · cases hnext

end

/-- Settles O7: a CMD word is no row without a form, and every other row makes the acceptance test. -/
theorem haltedEngineIgnoresCommands : Obligations.HaltedEngineIgnoresCommands :=
  fun _ h => ⟨runPacket_cmd_of_halted h, fun _ => exec_of_halted h⟩

/-! ### Only reset leaves the halt (60_exceptions R324) -/

/-- STATUS is read-only to the host: only a command changes it (10_state R24, R49). -/
theorem status_of_regWrite {off : Nat} (hoff : off ≠ 0x00) {w : Word} {s t : State}
    (h : regWrite off w s = .next t) : t.status = s.status := by
  unfold regWrite at h
  split at h
  case h_1 => contradiction
  all_goals cases h; rfl

theorem status_of_hostMemWrite {a : Word} {v : Byte} {s t : State} (h : hostMemWrite a v s = .next t) :
    t.status = s.status := by
  unfold hostMemWrite at h
  split at h
  · rename_i x _; cases x <;> cases h
  · cases h; rfl

theorem status_of_hostMemRead {a : Word} {s t : State} (h : hostMemRead a s = .next t) : t.status = s.status := by
  unfold hostMemRead at h
  split at h
  · rename_i x _; cases x <;> cases h
  · cases h; rfl

/-- Settles O8, operation by operation. -/
theorem onlyResetLeavesTheHalt : Obligations.OnlyResetLeavesTheHalt := by
  refine fun s hhalt => ⟨fun op t hop h => ?_, resetEvent s, rfl, by simp [accepting]⟩
  cases op with
  | regWrite off w =>
    by_cases hoff : off = 0x00
    · subst hoff
      rw [eq_of_runPacket_of_halted hhalt h]
    · exact status_of_regWrite hoff h
  | regRead off => cases h; rfl
  | memWrite a v => exact status_of_hostMemWrite h
  | memRead a => exact status_of_hostMemRead h
  | routineCall k => rw [eq_of_runPacket_of_halted hhalt h]
  | reset => exact absurd rfl hop

end Sys2Proof.Machine
end

section
/-! PROOFS. The errors of a BLIT: an unsupported pair, a missing palette, and PIXMEM after any of them (60_exceptions
R312 to R314, R323). -/

namespace Sys2Proof.Machine

/-! ### A pair without a routine (41_dispatch R166, 60_exceptions R312) -/

theorem blitTiled_of_unsupported {a : BlitArgs} (h : supportedPairs.contains (a.src.format, a.dst.format) = false)
    (lib : ColorLib) (op : CompOp) (s : State) :
    blitTiled lib op a s = .next (if isNoopTint op a.tint ∨ normalise lib a.dst.format op a.tint = none
      then endedOk s s.mem else endedError s 1 0x02) := by
  have hpair : dispatchPair a.src.format a.dst.format = none := by
    rwa [supportedPairs_contains, Option.isSome_eq_false_iff, Option.isNone_iff_eq_none] at h
  cases hnoop : isNoopTint op a.tint with
  | true => rw [blitTiled_of_noop hnoop, if_pos (.inl rfl)]
  | false =>
    rw [blitTiled, hnoop, if_neg Bool.false_ne_true]
    cases hnorm : normalise lib a.dst.format op a.tint with
    | none => simp only [endOk_eq, or_true, if_true]
    | some r =>
      have hroutine := runRoutine_of_none (a := { a with tint := r.2 }) hpair lib r.1 s
      simp only [hroutine, unsupportedPair_eq, Bool.false_eq_true, reduceCtorEq, or_self, if_false]

/-- Settles O23: the dispatch comes after the no-op path and the normalisation, before any access. -/
theorem unsupportedPairIsReported : Obligations.UnsupportedPairIsReported := by
  refine fun s hacc hpair => ⟨?_, ?_⟩
  · rw [exec_blit_eq_blitTiled hacc (.inl ⟨rfl, rfl⟩)]
    exact blitTiled_of_unsupported hpair engineLib _ s
  · rw [exec_blit_eq_blitTiled hacc (.inr ⟨rfl, rfl⟩)]
    exact blitTiled_of_unsupported hpair engineLib _ s

/-! ### A null palette (43_palette_to_mono1 R200, 44_palette_to_color8 R220, 60_exceptions R313) -/

theorem withPalette_of_missing {a : BlitArgs} (h : a.src.palette = 0) (s : State) (rest : State → Answer) :
    withPalette a s rest = .next (endedError s 2 0) := by
  rw [withPalette, if_pos h, raiseError_eq]; rfl

/-- Settles O25: every row of the two routines makes the palette check first. -/
theorem missingPaletteIsReported : Obligations.MissingPaletteIsReported := by
  intro s d f hacc hpal
  have hnull (d f : PixelFormat) : (rowArgs s d f).src.palette = 0 := by rw [rowArgs, blitArgs, srcBitmap, hpal]; rfl
  have reports {meaning : State → Answer} (h : meaning s = .next (endedError s 2 0)) :
      whenAccepting s meaning = .next (endedError s 2 0) := (whenAccepting_of_accepting hacc meaning).trans h
  have palm1 (recolor : Color → Color) (f : PixelFormat) :
      palm1 engineLib recolor (rowArgs s .mono1 f) s = .next (endedError s 2 0) :=
    withPalette_of_missing (hnull _ f) s _
  have palm1Rejected (f : PixelFormat) :
      palm1Rejected engineLib (rowArgs s .mono1 f) s = .next (endedError s 2 0) :=
    withPalette_of_missing (hnull _ f) s _
  have palc8 (combine : Combine) (d f : PixelFormat) : palc8 combine (rowArgs s d f) s = .next (endedError s 2 0) :=
    withPalette_of_missing (hnull d f) s _
  have palc8Rejected (d f : PixelFormat) : palc8Rejected (rowArgs s d f) s = .next (endedError s 2 0) :=
    withPalette_of_missing (hnull d f) s _
  simp only [List.forall_mem_cons, List.not_mem_nil, false_imp_iff, implies_true, and_true]
  and_intros
  iterate 2 (rw [exec]; exact reports (palm1 _ _))
  iterate 8 (rw [exec]; exact reports (palm1Rejected _))
  iterate 6 (rw [exec]; exact reports (palm1 _ _))
  iterate 2 (rw [exec]; exact reports (palc8 _ _ _))
  iterate 8 (rw [exec]; exact reports (palc8Rejected _ _))
  iterate 6 (rw [exec]; exact reports (palc8 _ _ _))

/-! ### PIXMEM after an error (60_exceptions R312 to R314, R323) -/

/-- Settles O43, from the four ways a BLIT can end: with OK the code is 0, and the fatal halt accepts nothing. -/
theorem errorsLeavePixmemUnchanged : Obligations.ErrorsLeavePixmemUnchanged := by
  intro s t i hi _ h hacc hcode
  have hother : i ∉ otherCommands := by obtain rfl | rfl := hi <;> simp [otherCommands]
  cases exec_ends hother s t h with
  | halted => rfl
  | ok _ => exact absurd (statusCode_withCode _ .ok) hcode
  | fatal c _ => rw [accepting_raiseFatal] at hacc; cases hacc
  | error _ => rfl

end Sys2Proof.Machine
end

section
/-! PROOFS. The caller's obligations: where they hold the walk reaches its last row, where they are broken it is refused
(40_primitives R142 to R148, 41_dispatch R167, 70_reset R346, R356). -/

namespace Sys2Proof.Machine

/-! ### The walk under the caller's obligations (70_reset R346) -/

section
variable {tab : List RowEntry} {a : BlitArgs}

/-- The visited columns of a row lie in the rectangle, whatever the format (40_primitives R143). -/
theorem dstRow_in_rect {y : Int} {d : DstRow} (h : dstRow tab a y = .ok d) :
    a.rect.x ≤ d.lo ∧ d.hi ≤ maxX a.rect := by
  unfold dstRow at h
  split at h
  · cases h; exact ⟨le_rfl, le_rfl⟩
  · split at h
    · cases h
    · cases h; exact ⟨le_max_right _ _, min_le_left _ _⟩

/-- Under the contract a row whose two descriptors are in the table runs, whatever the formats. -/
theorem rowRuns_of_known (h : contract a = true) {y : Int} (hy : a.rect.y ≤ y) (hy' : y < maxY a.rect)
    (hdst : rowKnown tab a.dst y = true) (hsrc : rowKnown tab a.src (srcY a y) = true) : rowRuns tab a y := by
  obtain ⟨_, _, _, _, hoff⟩ := contract_iff.1 h
  cases hx : rowPixels tab a y with
  | ok px => exact ⟨px, hx⟩
  | error x =>
    exfalso
    obtain hd | ⟨d, hd, hs | ⟨_, _, hc⟩⟩ := rowPixels_eq_error hx
    · obtain ⟨_, _, hd'⟩ | ⟨hk, _⟩ := dstRow_ok_or_error tab a y
      · rw [hd] at hd'; cases hd'
      · rw [hdst] at hk; cases hk
    · obtain ⟨_, _, hs'⟩ | ⟨hk, _⟩ := srcRow_ok_or_error tab hoff y (decide (d.lo < d.hi))
      · rw [hs] at hs'; cases hs'
      · rw [hsrc] at hk; cases hk
    · obtain ⟨hlo, hhi⟩ := dstRow_in_rect hd
      rw [rowContract_of_contract h hy hy' hlo hhi] at hc
      cases hc

theorem rowKnown_of_rowsInTable {b : Bitmap} (h : rowsInTable tab b = true) {y : Int} (hy : b.bounds.y ≤ y)
    (hy' : y < maxY b.bounds) : rowKnown tab b y = true := by
  simp only [rowsInTable, rowKnown, Bool.or_eq_true, Bool.and_eq_true, decide_eq_true_eq] at h ⊢
  exact h.imp_right fun hb => ⟨by omega, by omega⟩

/-- Tiling stays inside the source bounds (40_primitives R145). -/
theorem srcY_in_bounds (h : 0 < a.src.bounds.h) (y : Int) :
    a.src.bounds.y ≤ srcY a y ∧ srcY a y < maxY a.src.bounds := by
  have hlo := Int.emod_nonneg (a.off.y + (y - a.rect.y)) h.ne'
  have hhi := Int.emod_lt_of_pos (a.off.y + (y - a.rect.y)) h
  unfold srcY maxY
  omega

/-- Settles O28: both descriptors of every row of the rectangle are rows of their bounds. -/
theorem contractKeepsTheWalkGoing : Obligations.ContractKeepsTheWalkGoing := by
  intro tab a h hsrc hdst
  obtain ⟨_, ⟨_, _, htop, hbottom⟩, _, _, hoff⟩ := contract_iff.1 h
  refine blitPlan_stop_eq_none.2 (.inr fun y hy hy' => rowRuns_of_known h hy hy' ?_ ?_)
  · exact rowKnown_of_rowsInTable hdst (htop.trans hy) (hy'.trans_le hbottom)
  · obtain ⟨hlo, hhi⟩ := srcY_in_bounds (hoff.1.trans_lt hoff.2) y
    exact rowKnown_of_rowsInTable hsrc hlo hhi

/-! ### How many pixels a walk visits (70_reset R356) -/

theorem length_rowPixels_le {y : Int} {px : List Px} (h : rowPixels tab a y = .ok px) :
    px.length ≤ a.rect.w.toNat := by
  obtain ⟨d, r, hd, _, ⟨_, rfl⟩ | ⟨_, _, rfl⟩⟩ := rowPixels_eq_ok h
  · exact Nat.zero_le _
  · obtain ⟨hlo, hhi⟩ := dstRow_in_rect hd
    unfold maxX at hhi
    calc ((intRange d.lo d.hi).filterMap (pixelAt a y d r)).length
        ≤ (intRange d.lo d.hi).length := List.length_filterMap_le ..
      _ = (d.hi - d.lo).toNat := length_intRange ..
      _ ≤ a.rect.w.toNat := Int.toNat_le_toNat (by omega)

theorem length_planRows_le (rows : List Int) :
    (planRows tab a rows).pixels.length ≤ rows.length * a.rect.w.toNat := by
  induction rows with
  | nil => exact Nat.zero_le _
  | cons y rest ih =>
    unfold planRows
    split
    · exact Nat.zero_le _
    · rename_i px hpx
      have hrow := length_rowPixels_le hpx
      rw [List.length_append, List.length_cons, Nat.succ_mul]
      omega

theorem length_blitPlan_le (tab : List RowEntry) (a : BlitArgs) :
    (blitPlan tab a).pixels.length ≤ a.rect.h.toNat * a.rect.w.toNat := by
  have hrows : (intRange a.rect.y (maxY a.rect)).length = a.rect.h.toNat := by
    rw [length_intRange, maxY, add_sub_cancel_left]
  rw [blitPlan_pixels, ← hrows]
  exact length_planRows_le _

end

/-! ### A BLIT as the routine of its operands -/

/-- Past the no-op path and the normalisation a BLIT is its routine over the operands as they stand (41_dispatch
R160, R164). -/
theorem exec_blit_eq_routine {s : State} {i : Instr} {a : BlitArgs} {op : CompOp} {t : Color}
    (hacc : accepting s = true)
    (hi : (i = .blit ∧ a = blitArgs s) ∨ (i = .blitAt ∧ a = blitAtArgs s))
    (hnoop : isNoopTint (opField s.ctrl) (tintField s.ctrl) = false)
    (hnorm : normalise engineLib a.dst.format (opField s.ctrl) (tintField s.ctrl) = some (op, t)) :
    exec i s = runRoutine engineLib op a s ∧ (a.dst.format = .mono1 → op ≠ .tint ∧ op ≠ .tintLuminance) := by
  obtain ⟨hexec, htint⟩ := exec_blit_eq_runRoutine hacc hi hnoop hnorm
  exact ⟨hexec.trans (runRoutine_of_normalise (by rw [tint_of_blitArgs hi, hnorm]) s), htint⟩

/-- A pair with a routine has a destination of Mono1 or of 8 bits (30_encoding R105). -/
theorem dst_of_supportedPairs {f d : PixelFormat} (h : supportedPairs.contains (f, d) = true) :
    d = .mono1 ∨ d.isEightBit = true := by
  obtain ⟨r, hr⟩ := Option.isSome_iff_exists.1 (supportedPairs_contains f d ▸ h)
  have htakes := takes_of_dispatchPair hr
  cases r with
  | m1m1 | palm1P1 | palm1P2 => exact .inl htakes.2
  | palc8P1 | palc8P24 | c8c8 | m1c8 => exact .inr htakes.2

/-! ### A BLIT over an empty rectangle (41_dispatch R161) -/

section
variable {s : State} {a : BlitArgs} {op : CompOp}

theorem blitPlan_of_empty (h : isEmptyRect a.rect = true) (tab : List RowEntry) : blitPlan tab a = ⟨[], none⟩ :=
  if_pos h

theorem visited_of_empty (h : isEmptyRect a.rect = true) : visited s a = [] := by
  rw [visited, blitPlan_of_empty h]

theorem runs_of_empty (h : isEmptyRect a.rect = true) (hpal : backedBytes s (paletteBytes a.src) = true) :
    runs s a = true := by
  have hvisited := visited_of_empty (s := s) h
  have htouch : touchable s a = true := by simp [touchable, hvisited, hpal, footprintsMeet]
  exact runs_iff.2 ⟨by rw [blitPlan_of_empty h], htouch⟩

/-- The entry checks look at the operator for a palette source alone (43_palette_to_mono1 R201, 44_palette_to_color8
R222). -/
theorem entryPasses_of_permitted (h : entryPasses .assign a = true)
    (hop : isPaletteFormat a.src.format = true → permittedFromPalette op = true) : entryPasses op a = true := by
  obtain ⟨hpair, hpal, hsrc, hdst⟩ := entryPasses_iff.1 h
  exact entryPasses_iff.2 ⟨hpair, fun hs => ⟨(hpal hs).1, hop hs⟩, hsrc, hdst⟩

/-- Past its entry checks a palette routine rejects an operator that is not permitted over the plan (43_palette_to_mono1
R210, 44_palette_to_color8 R228). -/
theorem runRoutine_rejects {lib : ColorLib} (h : entryPasses .assign a = true)
    (hs : isPaletteFormat a.src.format = true) (hop : permittedFromPalette op = false)
    (hb : backedBytes s (paletteBytes a.src) = true) : ∃ look, runRoutine lib op a s = rejectBlit look a s := by
  obtain ⟨hpair, hpal, _, hdst⟩ := entryPasses_iff.1 h
  have hp := (hpal hs).1
  obtain ⟨r, hr⟩ := Option.isSome_iff_exists.1 (supportedPairs_contains a.src.format a.dst.format ▸ hpair)
  have htakes := takes_of_dispatchPair hr
  have palm1 (hd : a.dst.format = .mono1) : runPalm1P1 lib a s op = rejectBlit (palm1Look (pixEnv s) a) a s :=
    (runPalm1P1_rejected hop lib a s).trans (palm1Rejected_eq_rejectBlit hs hp (hdst hd) hb)
  have palc8 : runPalc8P1 lib a s op = rejectBlit (palc8Look (pixEnv s) a) a s :=
    (runPalc8P1_rejected hop lib a s).trans (withPalette_of_present hp s _)
  rw [runRoutine_of_some hr]
  cases r with
  | m1m1 | m1c8 => exact absurd htakes.1 (palette_ne_mono1 hs)
  | palm1P1 => exact ⟨_, palm1 htakes.2⟩
  | palm1P2 => exact ⟨_, (runPalm1P2_eq lib a s op).trans (palm1 htakes.2)⟩
  | palc8P1 => exact ⟨_, palc8⟩
  | palc8P24 => exact ⟨_, (runPalc8P24_eq lib a s op).trans palc8⟩
  | c8c8 =>
    obtain ⟨h8, _⟩ := htakes
    rcases isPaletteFormat_cases hs with hf | hf | hf <;> rw [hf] at h8 <;> cases h8

/-- An empty rectangle ends with OK, the operator permitted or not (41_dispatch R161, 60_exceptions R314). -/
theorem runRoutine_of_empty {lib : ColorLib} (h : entryPasses .assign a = true)
    (ht : a.dst.format = .mono1 → op ≠ .tint ∧ op ≠ .tintLuminance)
    (hb : backedBytes s (paletteBytes a.src) = true) (hempty : isEmptyRect a.rect = true) :
    runRoutine lib op a s = .next (endedOk s s.mem) := by
  by_cases hrejected : isPaletteFormat a.src.format = true ∧ permittedFromPalette op = false
  · obtain ⟨look, hlook⟩ := runRoutine_rejects (lib := lib) h hrejected.1 hrejected.2 hb
    rw [hlook]
    exact rejectBlit_of_unvisited (visited_of_empty hempty) (by rw [blitPlan_of_empty hempty])
  · have hentry : entryPasses op a = true :=
      entryPasses_of_permitted h fun hs => by simpa using fun hop => hrejected ⟨hs, hop⟩
    obtain ⟨f, _, hloop⟩ := runRoutine_loop (lib := lib) hentry ht fun _ => hb
    rw [hloop]
    refine runBlit_ok (runs_of_empty hempty hb) ?_
    rw [visited_of_empty hempty]
    rfl

end

/-- Settles O30: each row is at most the rectangle's width, and an empty rectangle has an empty plan. -/
theorem visitsAreBoundedByTheRectangle : Obligations.VisitsAreBoundedByTheRectangle := by
  refine ⟨length_blitPlan_le, fun s i a op t hacc hi hnoop hnorm hentry hpal hempty => ?_⟩
  obtain ⟨hexec, htint⟩ := exec_blit_eq_routine hacc hi hnoop hnorm
  rw [hexec]
  exact runRoutine_of_empty hentry htint hpal (by simpa [isEmptyRect] using hempty)

/-! ### The refusal of a broken obligation (93 U3, U4, U6; entries 7, 8, 10) -/

/-- The name by which a broken obligation is refused (entries 7, 10). -/
def brokenObligation (a : BlitArgs) : Refusal :=
  if negativeOperands a then .negativeCoordinates
  else if offsetMisses a then .offsetOutsideSource
  else .rectOutsideDestination

section
variable {tab : List RowEntry} {a : BlitArgs}

/-- Every row that breaks an obligation is refused by the one name. -/
theorem rowContract_eq_error {y lo hi : Int} {x : RowStop} (h : rowContract a y lo hi = .error x) :
    x = .refuse (brokenObligation a) := by
  rw [rowContract_eq] at h
  unfold brokenObligation
  split_ifs at h ⊢ <;> cases h <;> rfl

/-- A row that visits a broken pixel breaks an obligation as a whole. -/
theorem rowContract_of_broken {x y lo hi : Int} (hlo : lo ≤ x) (hhi : x < hi)
    (h : negativeOperands a = true ∨ offsetMisses a = true ∨ inRect a.dst.bounds x y = false) :
    rowContract a y lo hi = .error (.refuse (brokenObligation a)) := by
  unfold brokenObligation
  rw [rowContract_eq]
  split_ifs with hneg hoff hin
  · rfl
  · rfl
  · obtain ⟨hleft, hright, hrow⟩ := hin
    obtain h | h | h := h
    · exact absurd h hneg
    · exact absurd h hoff
    · rw [inRect_iff.2 ⟨⟨hleft.trans hlo, hhi.trans_le hright⟩, hrow⟩] at h
      cases h
  · rfl

/-- Whether a row has a visited column, as the claim and as the model say it (40_primitives R143). -/
theorem rowVisits_iff {y : Int} {d : DstRow} (h : dstRow tab a y = .ok d)
    (hf : a.dst.format = .mono1 ∨ a.dst.format.isEightBit = true) : rowVisits tab a y = true ↔ d.lo < d.hi := by
  obtain ⟨_, _, hcol, _⟩ := dstRow_eq_ok h hf
  simp only [rowVisits, List.any_eq_true, mem_intRange, and_assoc]
  constructor
  · rintro ⟨x, hx⟩
    obtain ⟨hlo, hhi⟩ := (hcol x).2 hx
    omega
  · intro hlt
    exact ⟨d.lo, (hcol d.lo).1 ⟨le_rfl, hlt⟩⟩

theorem srcRow_of_not_circular (h : a.src.format ≠ .color8Circular) (y : Int) (visits : Bool) :
    ∃ r, srcRow tab a y visits = .ok r := by
  unfold srcRow
  rw [if_neg h]
  split <;> exact ⟨_, rfl⟩

/-- A row that visits a column asks for no source row where the offset leaves `srcY` undefined (40_primitives R145;
entry 8). -/
theorem srcRow_of_visits (h : a.src.format = .color8Circular)
    (hoff : ¬ (0 ≤ a.off.y ∧ a.off.y < a.src.bounds.h)) (y : Int) : srcRow tab a y true = .ok none := by
  have hout : offsetInside a.off.y a.src.bounds.h = false := by
    rwa [offsetInside, ← Bool.decide_and, decide_eq_false_iff_not]
  rw [srcRow, if_pos h, hout, Bool.not_false, Bool.and_true, if_pos rfl]

theorem rowChecksPass_iff {y : Int} : rowChecksPass tab a y = true ↔ rowKnown tab a.dst y = true
    ∧ (a.src.format = .color8Circular → if 0 ≤ a.off.y ∧ a.off.y < a.src.bounds.h
      then rowKnown tab a.src (srcY a y) = true else rowVisits tab a y = true) := by
  simp only [rowChecksPass, Bool.and_eq_true, Bool.or_eq_true, bne_iff_ne, or_iff_not_imp_left, ne_eq, not_not,
    decide_eq_true_eq]
  split <;> rfl

section
variable (hf : a.dst.format = .mono1 ∨ a.dst.format.isEightBit = true) {y : Int}
include hf

/-- A row whose row-index checks pass has its two descriptors (60_exceptions R320). -/
theorem rows_of_rowChecksPass (hchecks : rowChecksPass tab a y = true) :
    ∃ d r, dstRow tab a y = .ok d ∧ srcRow tab a y (d.lo < d.hi) = .ok r := by
  obtain ⟨hdst, hsrc⟩ := rowChecksPass_iff.1 hchecks
  obtain ⟨_, d, hd⟩ | ⟨hk, _⟩ := dstRow_ok_or_error tab a y
  swap
  · rw [hdst] at hk; cases hk
  refine ⟨d, ?_⟩
  simp only [hd, true_and]
  by_cases hc : a.src.format = .color8Circular
  swap
  · exact srcRow_of_not_circular hc y _
  specialize hsrc hc
  split at hsrc
  · rename_i hoff
    obtain ⟨_, hr⟩ | ⟨hk, _⟩ := srcRow_ok_or_error tab hoff y (decide (d.lo < d.hi))
    · exact hr
    · rw [hsrc] at hk; cases hk
  · rename_i hoff
    have hcolumn : d.lo < d.hi := (rowVisits_iff hd hf).1 hsrc
    exact ⟨none, by rw [decide_eq_true hcolumn]; exact srcRow_of_visits hc hoff y⟩

/-- Such a row stops the walk for a broken obligation alone. -/
theorem stop_of_rowChecksPass (hchecks : rowChecksPass tab a y = true) {x : RowStop}
    (h : rowPixels tab a y = .error x) :
    x = .refuse (brokenObligation a) := by
  obtain ⟨d, r, hd, hr⟩ := rows_of_rowChecksPass hf hchecks
  obtain hd' | ⟨d', hd', hr' | ⟨_, _, hc⟩⟩ := rowPixels_eq_error h
  · rw [hd] at hd'; cases hd'
  · rw [hd] at hd'; cases hd'
    rw [hr] at hr'; cases hr'
  · exact rowContract_eq_error hc

/-- A row with a visited pixel that breaks an obligation does not run. -/
theorem not_rowRuns_of_broken {x : Int} (hx : a.rect.x ≤ x) (hx' : x < maxX a.rect)
    (hwin : inWindow tab a.dst x y = true)
    (hbroken : negativeOperands a = true ∨ offsetMisses a = true ∨ inRect a.dst.bounds x y = false) :
    ¬ rowRuns tab a y := by
  rintro ⟨px, hpx⟩
  obtain ⟨d, _, hd, _, ⟨hnone, _⟩ | ⟨_, hc, _⟩⟩ := rowPixels_eq_ok hpx
  all_goals
    obtain ⟨_, _, hcol, _⟩ := dstRow_eq_ok hd hf
    obtain ⟨hlo, hhi⟩ := (hcol x).2 ⟨hx, hx', hwin⟩
  · omega
  · rw [rowContract_of_broken hlo hhi hbroken] at hc
    cases hc

end

/-- A walk over rising rows that stops stops at its first row that does not run. -/
theorem exists_first_stop {rows : List Int} (hr : rows.Pairwise (· < ·)) {x : RowStop}
    (h : (planRows tab a rows).stop = some x) :
    ∃ y ∈ rows, rowPixels tab a y = .error x ∧ ∀ z ∈ rows, ¬ rowRuns tab a z → y ≤ z := by
  obtain ⟨above, y, below, rfl, habove, hx, _⟩ := planRows_stop_some h
  obtain ⟨_, hbelow, _⟩ := List.pairwise_append.1 hr
  refine ⟨y, by simp, hx, fun z hz hstop => ?_⟩
  obtain hz | hz | hz := (List.mem_append.1 hz).imp_right List.mem_cons.1
  · exact absurd (planRows_stop_none.1 habove z hz) hstop
  · exact hz.ge
  · exact ((List.pairwise_cons.1 hbelow).1 z hz).le

/-- The walk over a rectangle with a pixel that breaks an obligation is refused, where the row-index checks down to the
pixel's row pass. -/
theorem stop_of_broken (hf : a.dst.format = .mono1 ∨ a.dst.format.isEightBit = true) {x y : Int}
    (hin : inRect a.rect x y = true) (hwin : inWindow tab a.dst x y = true)
    (hchecks : ∀ z, a.rect.y ≤ z → z ≤ y → rowChecksPass tab a z = true)
    (hbroken : negativeOperands a = true ∨ offsetMisses a = true ∨ inRect a.dst.bounds x y = false) :
    (blitPlan tab a).stop = some (.refuse (brokenObligation a)) := by
  obtain ⟨⟨hx, hx'⟩, hy, hy'⟩ := inRect_iff.1 hin
  have hno := not_rowRuns_of_broken hf hx hx' hwin hbroken
  have hplan : blitPlan tab a = rowLoop tab a := if_neg (by simp [not_isEmptyRect_of_inRect hin])
  rw [hplan]
  cases hstop : (rowLoop tab a).stop with
  | none => exact absurd (planRows_stop_none.1 hstop y (mem_intRange.2 ⟨hy, hy'⟩)) hno
  | some e =>
    obtain ⟨z, hz, he, hfirst⟩ := exists_first_stop (intRange_pairwise ..) hstop
    have hzy := hfirst y (mem_intRange.2 ⟨hy, hy'⟩) hno
    rw [stop_of_rowChecksPass hf (hchecks z (mem_intRange.1 hz).1 hzy) he]

end

/-- A loop whose walk is refused answers the refusal, its pixels before the stop having run (20_memory R71). -/
theorem LoopPixel.runBlit_refused {op : CompOp} {s : State} {a : BlitArgs} {f : Px → Memory → Except Stop Memory}
    (hf : LoopPixel op (pixEnv s) a f) (ht : touchable s a = true) {r : Refusal}
    (hstop : (blitPlan s.cfg.rowtab a).stop = some (.refuse r)) : runBlit f a s = .refused r := by
  obtain ⟨m, hm⟩ := runPixels_exists_ok (fun _ hp => hf.exists_ok ht hp) s.mem
  rw [runBlit_of_run (apart_of_touchable ht) hm, hstop]
  rfl

/-- Settles O48: the walk is refused at the pixel's row or above it, by the same name. -/
theorem brokenContractIsRefused : Obligations.BrokenContractIsRefused := by
  intro s i a op t x y hacc hi hnoop hnorm hentry htouch hin hwin hchecks hbroken
  obtain ⟨hexec, htint⟩ := exec_blit_eq_routine hacc hi hnoop hnorm
  obtain ⟨f, hpixel, hloop⟩ := runRoutine_loop (lib := engineLib) (s := s) hentry htint fun _ =>
    List.all_eq_true.2 fun _ hb => backed_palette htouch hb
  have hf := dst_of_supportedPairs (entryPasses_iff.1 hentry).1
  rw [hexec, hloop]
  exact hpixel.runBlit_refused htouch (stop_of_broken hf hin hwin hchecks hbroken)

end Sys2Proof.Machine
end

section
/-! PROOFS. The reset event and the state after reset (70_reset R340, R341, R344). -/

namespace Sys2Proof.Machine

/-- Settles O9, register by register. -/
theorem resetValues : Obligations.ResetValues := fun s =>
  ⟨resetEvent s, rfl, ⟨rfl, rfl, rfl, rfl, rfl, rfl, rfl, rfl, rfl, rfl, rfl, rfl, rfl, rfl⟩,
    ⟨rfl, rfl, rfl, rfl, rfl⟩, ⟨rfl, rfl, rfl, rfl⟩, ⟨rfl, rfl, rfl⟩, rfl, fun _ => rfl, rfl⟩

theorem cfgWf_board : cfgWf board = true := by
  unfold board
  split
  · assumption
  · decide

/-- Beside the configuration, which is well formed whatever the engine is, each clause is that of zero registers or
of an empty PIXMEM (70_reset R341; entry 3). -/
theorem inv_reset : Inv State.reset where
  memory := memWf_nil
  config := cfgWf_board
  arg0 := BitVec.zero_and
  srcFmt := BitVec.zero_and
  dstFmt := BitVec.zero_and
  ctrl := BitVec.zero_and
  status := statusLegal_zero
  errlog := BitVec.zero_and
  flags := Nat.zero_le _
  cursor := Nat.zero_le _
  dirty := dirtyIn_size_zero (org := 0) board (by decide) (by decide)
  clean := .inr ⟨rfl, rfl⟩

/-- Settles O10, clause by clause. -/
theorem resetStateMeetsInvariant : Obligations.ResetStateMeetsInvariant := inv_iff.2 inv_reset

/-- Settles O46: zero operands are an empty rectangle between two aligned Mono1 bitmaps. -/
theorem blitRightAfterResetIsDefined : Obligations.BlitRightAfterResetIsDefined :=
  visitsAreBoundedByTheRectangle.2 State.reset .blit (blitArgs State.reset) .assign 0 rfl (.inl ⟨rfl, rfl⟩) rfl rfl rfl
    rfl (.inl le_rfl)

end Sys2Proof.Machine
end
